-- ==== Sys2Proof/Word.lean ====
section
/-! DEFINITION. The plain data of PQED: bytes, 32-bit words, colours and triples of channels. -/

namespace Sys2Proof

/-- A byte: a memory cell, a channel sample (00_scope.md, "Sample"). -/
abbrev Byte := BitVec 8

/-- A 32-bit word: a host register or a command word (10 R21, 30 R80). -/
abbrev Word := BitVec 32

/-- Four channel values R, G, B, A, 0 to 255 each (20 R61, 10 R43). -/
structure Color where
  r : Byte
  g : Byte
  b : Byte
  a : Byte
deriving DecidableEq, Repr, Inhabited

/-- One value for each of the three channels the Disperser works on (41 R110: alpha has none). -/
structure Rgb (α : Type) where
  r : α
  g : α
  b : α
deriving DecidableEq, Repr

end Sys2Proof
end

