-- ==== Sys2Proof/Config.lean ====
section
/-! DEFINITION. The names the spec gives to formats, encoders and tie rules, the parameters of 00 R7, and the constants with no
body that stand for what no rule fixes. The DEFAULT values of the tables are in Machine/Formats.lean. -/

namespace Sys2Proof

/-- The known values of CFG.FMT, in the order of 30 R88 (0x00 to 0x12). -/
inductive Fmt where
  | tc332 | tc565 | tc565s | tc888
  | a1 | a2 | a4 | a8
  | i1 | i2 | i4 | i8
  | raw | rawAlpha | rawChroma
  | planar565a8
  | trueColor | trueColorAlpha | trueColorChroma
deriving DecidableEq, Repr

/-- The concrete encoders (00_scope.md, "Concrete encoder"; 30 R92). -/
inductive Encoder where
  | tc332 | tc565 | tc565s | tc888 | tc8888
  | pl565 | pla8
  | a1 | a2 | a4 | a8
  | i1 | i2 | i4 | i8
  | raw
deriving DecidableEq, Repr

/-- The tie rules of the Quantizer (00 R7 QROUND). -/
inductive TieRule where
  | halfDown
  | halfUp
deriving DecidableEq, Repr

/-- The tie rules of the diffusion fractions (00 R7 DROUND). -/
inductive ShareRule where
  | halfUpPos
  | halfAway
deriving DecidableEq, Repr

/-- Who calls the Quantizer: the TRUNC command, which a model may give a tie rule of its own (40 R106), or an encoder
(`QROUND(enc)`). -/
inductive QuantUser where
  | truncCommand
  | encoder (e : Encoder)
deriving DecidableEq, Repr

/-- The parameters of 00 R7 that are plain data. `halfUpUsers` lists the users of the Quantizer whose QROUND is HALF_UP;
`formatCodes` and `cfNames` list the entries by which FORMAT_CODE and CF_NAME differ from the tables of 45 R193 and R199
(the key of a name is the format and L.ALPHA). `textWrap` is TEXT_WRAP, a positive constant (`Params.wf`). -/
structure Params where
  halfUpUsers : List QuantUser
  dround : ShareRule
  textWrap : Nat
  formatCodes : List (Fmt × Option (BitVec 10))
  plCode : Option (BitVec 10)
  cfNames : List ((Fmt × Bool) × List Byte)
  name : List Byte
deriving DecidableEq, Repr

/-- The parameters with every default of 00 R7. NAME has no default; `img` is the one the vectors of 95_test_vectors.md use.
DESIGN CHOICE, unsafe (log 3). -/
def Params.default : Params where
  halfUpUsers := []
  dround := .halfUpPos
  textWrap := 16
  formatCodes := []
  plCode := none
  cfNames := []
  name := [0x69, 0x6D, 0x67]

/-- TEXT_WRAP is positive (00 R7). -/
abbrev Params.wf (p : Params) : Prop := 0 < p.textWrap

/-- What the palette collaborator answers: the ordered colour list and the remapped image, a list of rows (42 R128). -/
structure PalAnswer where
  colors : List Color
  remap : List (List Color)
deriving DecidableEq, Repr, Inhabited

/-- What PALB hands to the palette collaborator: the W x H image, its width and its list of rows, and the palette size P (00 R7
PALQ, 42 R128). The width stands beside the rows so that images without rows are told apart by their width (log 4). -/
structure PalRequest where
  width : Nat
  image : List (List Color)
  size : Nat
deriving DecidableEq, Repr

/-- PALQ (00 R7, 42 R135) on the requests the table of the state does not list: a function of the image and P, with no
body, so nothing is known of its answers. DESIGN CHOICE, safe (log 4). -/
opaque Config.palq : PalRequest → PalAnswer

/-- What OUTLEN holds, less one, after an artifact of 2^32 bytes or more, which does not fit its 32 bits: 10 R35 states only that
OUTLEN > 0, so it is a free value of the 2^32 - 1 that are left. DESIGN CHOICE, safe (log 8). -/
opaque Config.outlenBeyond : Nat → Fin 4294967295

end Sys2Proof
end

