-- ==== Sys2Proof/Syntax.lean ====
section
/-! DEFINITION. The commands of the PQED command set, edition 1: one constructor per row of the opcode table (30 R84). -/

namespace Sys2Proof

/-- A command. Only TRUNC and SUBC carry operands; their fields are those of 30 R81. -/
inductive Instr where
  /-- INIT, 44 R170 -/
  | init
  /-- RUN, 44 R181 -/
  | run
  /-- PALB, 42 R127 -/
  | palb
  /-- ROWS, 41 R112 -/
  | rows
  /-- QPIX, 41 R113 -/
  | qpix
  /-- TRUNC, 40 R106: `value` is cmd[19:8], signed; `bits` is cmd[23:20] (30 R82) -/
  | trunc (value : BitVec 12) (bits : BitVec 4)
  /-- PALR, 42 R134 -/
  | palr
  /-- HDR, 45 R191 -/
  | hdr
  /-- SERB, 45 R194 -/
  | serb
  /-- SERT, 45 R196 -/
  | sert
  /-- SUBC, 44 R175: `sub` is cmd[9:8] (30 R83) -/
  | subc (sub : BitVec 2)
  /-- ENC.TC332, 43 R141 -/
  | encTc332
  /-- ENC.TC565, 43 R143 -/
  | encTc565
  /-- ENC.TC565S, 43 R144 -/
  | encTc565s
  /-- ENC.TC888, 43 R145 -/
  | encTc888
  /-- ENC.A1, 43 R152 -/
  | encA1
  /-- ENC.A2, 43 R153 -/
  | encA2
  /-- ENC.A4, 43 R154 -/
  | encA4
  /-- ENC.A8, 43 R155 -/
  | encA8
  /-- ENC.I1, 43 R157 -/
  | encI1
  /-- ENC.I2, 43 R158 -/
  | encI2
  /-- ENC.I4, 43 R159 -/
  | encI4
  /-- ENC.I8, 43 R160 -/
  | encI8
  /-- ENC.RAW, 43 R161 -/
  | encRaw
  /-- ENC.TC8888, 43 R146 -/
  | encTc8888
  /-- ENC.PL565, 43 R148 -/
  | encPl565
  /-- ENC.PLA8, 43 R149 -/
  | encPla8
deriving DecidableEq, Repr

end Sys2Proof
end

