-- ==== Sys2Proof/Machine/State.lean ====
section
/-! DEFINITION. The state of PQED (10_state.md), the reasons a step can stop, and the machine right after reset (10 R46). -/

namespace Sys2Proof.Machine

/-- The error codes of 60 R211; `none` is ECODE 0. -/
inductive ErrCode where
  | none
  | ceUnknownFormat
  | ceNoBinsub
  | ceNoFormatCode
  | ceDimsRange
  | loadError
  | iePaletteMiss
  | ieIndexRange
  | ieCollaborator
  | cmdIllegal
deriving DecidableEq, Repr

/-- The byte memories a command can read (20 R60). -/
inductive Space where
  | raster
  | rawin
  | remap
deriving DecidableEq, Repr

/-- The fault of the model. -/
inductive Fault where
  /-- UNWRITTEN_INPUT: raised by a command that reads a byte of RASTER, RAWIN or REMAP nothing has written since reset
  (10 R47, 93 U1). Safe: the hardware goes on with whatever the cell holds. -/
  | unwrittenInput (space : Space) (addr : Nat)
deriving DecidableEq, Repr

/-- The refusals of the model. All but `notModelled` are raised by a move of the host, never by a command. -/
inductive Refusal where
  /-- raised by an arm of `exec` that gives its instruction no meaning. Safe. -/
  | notModelled (mnemonic : String)
  /-- raised by a host write against the duties of 70 R238 (93 U2, U3: "no move"). Safe.
  DESIGN CHOICE (log 9). -/
  | hostDuty
  /-- raised by a register access that is not 32 bits wide or not 4-byte aligned (20 R74, 93 U10). Safe.
  DESIGN CHOICE (log 10). -/
  | accessShape
  /-- raised by a register access at an offset above 0xFF, which is outside the register window (20 R60). Safe.
  DESIGN CHOICE (log 10). -/
  | outsideWindow
  /-- raised by an OSTREAM read while DONE = 0 or at an address not below OUTLEN (20 R66, 70 R240, 93 U9). Safe.
  DESIGN CHOICE (log 10). -/
  | artifactRead
deriving DecidableEq, Repr

/-- One access of the host to the block (60 R226, 20 R74). `bytes` is the width of a register access. -/
inductive HostAccess where
  | readReg (offset bytes : Nat)
  | writeReg (offset bytes : Nat) (value : Word)
  | writeRaster (addr : Nat) (value : Byte)
  | writeRawin (addr : Nat) (value : Byte)
  | readOstream (addr : Nat)
deriving DecidableEq, Repr

/-- Whose turn a step is (00 R6). DESIGN CHOICE (log 1). -/
inductive Move where
  /-- the sequencer executes the next command of PQ; it idles when BUSY = 0 and is held while PALB waits -/
  | sequencer
  /-- the host makes one access -/
  | host (a : HostAccess)
  /-- the collaborator says whether it will let the next PALB wait (log 5) -/
  | collabDefer (b : Bool)
  /-- the collaborator answers the PALB that waits (70 R239) -/
  | collabAnswer
  /-- the reset event (70 R230) -/
  | reset
deriving DecidableEq, Repr

/-- STATUS (10 R32); the reserved bits have no storage. -/
structure Status where
  busy : Bool
  done : Bool
  err : Bool
  warn : Bool
  palv : Bool
  actv : Bool
  ecode : ErrCode
  subdone : BitVec 4
  initOk : Bool
deriving DecidableEq, Repr

/-- The latched configuration L (10 R33). -/
structure Latched where
  fmt : Fmt
  alpha : Bool
  out : Bool
  swap : Bool
  dith : Bool
  binsub : BitVec 3
  w : BitVec 16
  h : BitVec 16
  rawlen : Word
  nsub : Nat
deriving DecidableEq, Repr

/-- The raster cursor (SUB, PASS, Y, X) (10 R36). -/
structure Cursor where
  sub : BitVec 2
  pass : Bool
  y : BitVec 16
  x : BitVec 16
deriving DecidableEq, Repr

/-- A byte memory: the written bytes by rising address. An address that is not listed has no value (10 R47, 20 R64).
Unbounded: DESIGN CHOICE (log 11). -/
abbrev Memory := List Host.Cell

/-- The canonical form of a memory: addresses strictly rising. (Every listed byte is a value, an unlisted one reads as no
value, so no entry can equal what an unlisted address reads as.) -/
abbrev Memory.wf (m : Memory) : Prop := m.Pairwise (fun p q => p.1 < q.1)

/-- OBUF[0..3], one output buffer for each sub-conversion (10 R44, 20 R64). -/
structure Obufs where
  b0 : Memory
  b1 : Memory
  b2 : Memory
  b3 : Memory
deriving DecidableEq, Repr

/-- Everything the block holds, and the model's own fields (`params` to `hostData`). -/
structure State where
  -- host registers, 10 R21
  cfg : Word
  dims : Word
  odims : Word
  instat : Word
  rawlen : Word
  arg : Word
  -- status and result registers, 10 R32 to R35
  status : Status
  res : Word
  outlen : Word
  -- latched configuration, cursor, program queue and palette hold, 10 R33, R36, R37; 42 R128
  l : Latched
  cur : Cursor
  pq : List Word
  waiting : Bool
  -- datapath, 10 R40 to R43; NERR and EARR unbounded (log 13)
  act : Rgb Byte
  nerr : Rgb Int
  earr : Rgb (List Int)
  pal : List Color
  -- memories, 10 R44
  raster : Memory
  rawin : Memory
  remap : Memory
  obuf : Obufs
  ostream : List Byte
  -- the model's own fields (log 3, 4, 1, 5, 14)
  params : Params
  palq : List (PalRequest × PalAnswer)
  agenda : List Move
  collabDefers : Bool
  hostData : Option Word
deriving DecidableEq, Repr

/-- STATUS after reset (10 R46). -/
def Status.reset : Status :=
  { busy := false, done := false, err := false, warn := false, palv := false, actv := false, ecode := .none,
    subdone := 0, initOk := false }

/-- L after reset (10 R33, R46). -/
def Latched.reset : Latched :=
  { fmt := .tc332, alpha := false, out := false, swap := false, dith := false, binsub := 0, w := 0, h := 0, rawlen := 0,
    nsub := 1 }

/-- The machine right after reset (10 R46, 70 R230). The values of the model's own fields are DESIGN CHOICES (log 1, 3, 4, 5,
14). -/
def State.reset : State :=
  { cfg := 0, dims := 0, odims := 0, instat := 0, rawlen := 0, arg := 0
    status := Status.reset, res := 0, outlen := 0
    l := Latched.reset, cur := { sub := 0, pass := false, y := 0, x := 0 }, pq := [], waiting := false
    act := ⟨0, 0, 0⟩, nerr := ⟨0, 0, 0⟩, earr := ⟨[0, 0], [0, 0], [0, 0]⟩
    pal := List.replicate 256 ⟨0, 0, 0, 0⟩
    raster := [], rawin := [], remap := [], obuf := ⟨[], [], [], []⟩, ostream := []
    params := Params.default, palq := [], agenda := [], collabDefers := false, hostData := none }

end Sys2Proof.Machine
end

