-- ==== Sys2Proof/Machine/Memory.lean ====
section
/-! DEFINITION. Reading and writing the byte memories (20 R60, R64). -/

namespace Sys2Proof.Machine

/-- The value of one byte, or none when nothing has written it. -/
def Memory.read : Memory → Nat → Option Byte
  | [], _ => none
  | (k, v) :: t, a => if a = k then some v else Memory.read t a

/-- One byte written; the addresses stay strictly rising. -/
def Memory.write : Memory → Nat → Byte → Memory
  | [], a, b => [(a, b)]
  | (k, v) :: t, a, b =>
    if a < k then (a, b) :: (k, v) :: t
    else if a = k then (a, b) :: t
    else (k, v) :: Memory.write t a b

/-- Bytes written in ascending address order from `a` (00 R11 MemWrite). -/
def Memory.writeList : Memory → Nat → List Byte → Memory
  | m, _, [] => m
  | m, a, b :: t => Memory.writeList (Memory.write m a b) (a + 1) t

/-- 1 + the largest address written, or 0 when nothing is written (20 R64). -/
def Memory.len : Memory → Nat
  | [] => 0
  | (k, _) :: t => max (k + 1) (Memory.len t)

/-- The `n` bytes from `a` up, or none when one of them is not written. -/
def Memory.readList (m : Memory) : Nat → Nat → Option (List Byte)
  | _, 0 => some []
  | a, n + 1 =>
    match Memory.read m a, Memory.readList m (a + 1) n with
    | some b, some t => some (b :: t)
    | _, _ => none

/-- The whole contents as a byte sequence when the memory holds exactly the bytes 0 to n - 1 (45 R195). -/
def Memory.exactly (m : Memory) (n : Nat) : Option (List Byte) :=
  if Memory.len m = n then Memory.readList m 0 n else none

/-- The output buffer of a sub-conversion. -/
def Obufs.get (o : Obufs) (i : BitVec 2) : Memory :=
  match i.toNat with
  | 0 => o.b0
  | 1 => o.b1
  | 2 => o.b2
  | _ => o.b3

/-- The output buffers with that of one sub-conversion replaced. -/
def Obufs.set (o : Obufs) (i : BitVec 2) (m : Memory) : Obufs :=
  match i.toNat with
  | 0 => { o with b0 := m }
  | 1 => { o with b1 := m }
  | 2 => { o with b2 := m }
  | _ => { o with b3 := m }

/-- The four output buffers, empty (44 R170). -/
def Obufs.empty : Obufs := ⟨[], [], [], []⟩

end Sys2Proof.Machine
end

