-- ==== Sys2Proof/Machine/Flags.lean ====
section
/-! DEFINITION. The STATUS word (10 R32) and the flag updates that more than one command makes. PQED has no condition codes
(10 R45). -/

namespace Sys2Proof.Machine

/-- ECODE values (60 R211). -/
def ErrCode.code : ErrCode → BitVec 4
  | .none => 0
  | .ceUnknownFormat => 1
  | .ceNoBinsub => 2
  | .ceNoFormatCode => 3
  | .ceDimsRange => 4
  | .loadError => 5
  | .iePaletteMiss => 6
  | .ieIndexRange => 7
  | .ieCollaborator => 8
  | .cmdIllegal => 9

/-- STATUS as the host reads it (10 R32): BUSY [0], DONE [1], ERR [2], WARN [3], PALV [4], ACTV [5], ECODE [11:8],
SUBDONE [15:12], INIT_OK [16], every other bit 0. -/
def Status.word (t : Status) : Word :=
  (0 : BitVec 15) ++ BitVec.ofBool t.initOk ++ t.subdone ++ t.ecode.code ++ (0 : BitVec 2) ++ BitVec.ofBool t.actv ++
    BitVec.ofBool t.palv ++ BitVec.ofBool t.warn ++ BitVec.ofBool t.err ++ BitVec.ofBool t.done ++ BitVec.ofBool t.busy

/-- SUBDONE[s] (10 R38). -/
def Status.subDone (t : Status) (i : BitVec 2) : Bool := t.subdone.getLsbD i.toNat

/-- complete(s): SUBDONE[s] <- 1 (44 R179). -/
def Status.complete (t : Status) (i : BitVec 2) : Status := { t with subdone := t.subdone ||| (1#4 <<< i.toNat) }

/-- What error entry does to STATUS (60 R215): SUBDONE, PALV, ACTV and WARN are kept. -/
def Status.enterError (t : Status) (c : ErrCode) : Status :=
  { t with err := true, ecode := c, busy := false, done := false, initOk := false }

/-- What INIT clears before its checks (44 R170). -/
def Status.clearOutcome (t : Status) : Status :=
  { t with err := false, ecode := .none, done := false, warn := false, initOk := false }

end Sys2Proof.Machine
end

