-- ==== Sys2Proof/Machine/Formats.lean ====
section
/-! DEFINITION. The tables of the request formats: selector values (30 R88), families, format codes (45 R193) and text names
(45 R199). -/

namespace Sys2Proof.Machine

/-- The bytes of an ASCII text (45 R196: utf8 is the identity on character codes). -/
def ascii (t : String) : List Byte := t.toList.map (fun c => BitVec.ofNat 8 c.toNat)

/-- The request formats in the order of their CFG.FMT values 0x00 to 0x12 (30 R88). -/
def fmtTable : List Fmt :=
  [.tc332, .tc565, .tc565s, .tc888, .a1, .a2, .a4, .a8, .i1, .i2, .i4, .i8, .raw, .rawAlpha, .rawChroma, .planar565a8,
   .trueColor, .trueColorAlpha, .trueColorChroma]

/-- The format a CFG.FMT value selects; none for the unknown values 0x13 to 0x1F (30 R88). -/
def fmtOfCode (v : BitVec 5) : Option Fmt := fmtTable[v.toNat]?

/-- Raw formats: RAW, RAW_ALPHA, RAW_CHROMA (44 R171). -/
def isRaw : Fmt → Bool
  | .raw | .rawAlpha | .rawChroma => true
  | .tc332 | .tc565 | .tc565s | .tc888 | .a1 | .a2 | .a4 | .a8 | .i1 | .i2 | .i4 | .i8 | .planar565a8
  | .trueColor | .trueColorAlpha | .trueColorChroma => false

/-- Composite true-colour requests (00_scope.md, "Composite request"). -/
def isComposite : Fmt → Bool
  | .trueColor | .trueColorAlpha | .trueColorChroma => true
  | .tc332 | .tc565 | .tc565s | .tc888 | .a1 | .a2 | .a4 | .a8 | .i1 | .i2 | .i4 | .i8 | .planar565a8
  | .raw | .rawAlpha | .rawChroma => false

/-- Indexed formats (30 R91). -/
def isIndexed : Fmt → Bool
  | .i1 | .i2 | .i4 | .i8 => true
  | .tc332 | .tc565 | .tc565s | .tc888 | .a1 | .a2 | .a4 | .a8 | .raw | .rawAlpha | .rawChroma | .planar565a8
  | .trueColor | .trueColorAlpha | .trueColorChroma => false

/-- The table of 45 R193. The planar format's code is the parameter PL_CODE. -/
def formatCodeTable (plCode : Option (BitVec 10)) : Fmt → Option (BitVec 10)
  | .raw => some 1
  | .rawAlpha => some 2
  | .rawChroma => some 3
  | .trueColor => some 4
  | .trueColorAlpha => some 5
  | .trueColorChroma => some 6
  | .i1 => some 7
  | .i2 => some 8
  | .i4 => some 9
  | .i8 => some 10
  | .a1 => some 11
  | .a2 => some 12
  | .a4 => some 13
  | .a8 => some 14
  | .planar565a8 => plCode
  | .tc332 | .tc565 | .tc565s | .tc888 => none

/-- FORMAT_CODE (45 R193): the parameter's entry for the format if it has one, else the table's. -/
def formatCode (p : Params) (f : Fmt) : Option (BitVec 10) :=
  match p.formatCodes.lookup f with
  | some c => c
  | none => formatCodeTable p.plCode f

/-- The table of 45 R199; the concrete true-colour names depend on L.ALPHA. -/
def cfNameTable (f : Fmt) (alpha : Bool) : List Byte :=
  match f with
  | .tc332 | .tc565 | .tc565s | .tc888 =>
    if alpha then ascii "LV_IMG_CF_TRUE_COLOR_ALPHA" else ascii "LV_IMG_CF_TRUE_COLOR"
  | .trueColor => ascii "LV_IMG_CF_TRUE_COLOR"
  | .trueColorAlpha => ascii "LV_IMG_CF_TRUE_COLOR_ALPHA"
  | .trueColorChroma => ascii "LV_IMG_CF_TRUE_COLOR_CHROMA_KEYED"
  | .a1 => ascii "LV_IMG_CF_ALPHA_1BIT"
  | .a2 => ascii "LV_IMG_CF_ALPHA_2BIT"
  | .a4 => ascii "LV_IMG_CF_ALPHA_4BIT"
  | .a8 => ascii "LV_IMG_CF_ALPHA_8BIT"
  | .i1 => ascii "LV_IMG_CF_INDEXED_1BIT"
  | .i2 => ascii "LV_IMG_CF_INDEXED_2BIT"
  | .i4 => ascii "LV_IMG_CF_INDEXED_4BIT"
  | .i8 => ascii "LV_IMG_CF_INDEXED_8BIT"
  | .raw => ascii "LV_IMG_CF_RAW"
  | .rawAlpha => ascii "LV_IMG_CF_RAW_ALPHA"
  | .rawChroma => ascii "LV_IMG_CF_RAW_CHROMA_KEYED"
  | .planar565a8 => ascii "LV_IMG_CF_RGB565A8"

/-- CF_NAME (45 R199): the parameter's entry if it has one, else the table's. -/
def cfName (p : Params) (f : Fmt) (alpha : Bool) : List Byte :=
  match p.cfNames.lookup (f, alpha) with
  | some n => n
  | none => cfNameTable f alpha

end Sys2Proof.Machine
end

