-- ==== Sys2Proof/Machine/Operands.lean ====
section
/-! DEFINITION. The operands of commands: fields of the host registers, what the latched configuration selects, sample
addresses, buffer lengths. -/

namespace Sys2Proof.Machine

/-! Fields of the host registers (10 R24 to R30). -/

def cfgFmt (cfg : Word) : BitVec 5 := cfg.extractLsb' 0 5
def cfgAlpha (cfg : Word) : Bool := cfg.getLsbD 5
def cfgOut (cfg : Word) : Bool := cfg.getLsbD 6
def cfgSwap (cfg : Word) : Bool := cfg.getLsbD 7
def cfgDith (cfg : Word) : Bool := cfg.getLsbD 8
def cfgBinsub (cfg : Word) : BitVec 3 := cfg.extractLsb' 9 3
/-- Width and height in DIMS and ODIMS (10 R26, R27). -/
def dimsW (d : Word) : BitVec 16 := d.extractLsb' 0 16
def dimsH (d : Word) : BitVec 16 := d.extractLsb' 16 16
/-- DEC_FAIL and OVR_VALID of INSTAT (10 R28). -/
def instatDecFail (i : Word) : Bool := i.getLsbD 0
def instatOvrValid (i : Word) : Bool := i.getLsbD 1

/-- The colour operand of PALR (10 R30, 42 R134). -/
def argColor (arg : Word) : Color :=
  { r := arg.extractLsb' 0 8, g := arg.extractLsb' 8 8, b := arg.extractLsb' 16 8, a := arg.extractLsb' 24 8 }

/-! What the latched configuration selects. -/

/-- EncSel (30 R92). A composite request with a BINSUB that names no encoder, which INIT rejects, has none (log 12). -/
def encSel (l : Latched) (s : BitVec 2) (pass : Bool) : Option Encoder :=
  match l.fmt with
  | .tc332 => some .tc332
  | .tc565 => some .tc565
  | .tc565s => some .tc565s
  | .tc888 => some .tc888
  | .a1 => some .a1
  | .a2 => some .a2
  | .a4 => some .a4
  | .a8 => some .a8
  | .i1 => some .i1
  | .i2 => some .i2
  | .i4 => some .i4
  | .i8 => some .i8
  | .raw | .rawAlpha | .rawChroma => some .raw
  | .planar565a8 => if pass then some .pla8 else some .pl565
  | .trueColor | .trueColorAlpha | .trueColorChroma =>
    if l.out then
      match l.binsub.toNat with
      | 1 => some .tc332
      | 2 => some .tc565
      | 3 => some .tc565s
      | 4 => some .tc8888
      | _ => none
    else
      match s.toNat with
      | 0 => some .tc332
      | 1 => some .tc565
      | 2 => some .tc565s
      | _ => some .tc888

/-- EffAlpha (30 R93); the formats it is not given for carry no trailing alpha byte. -/
def effAlpha (l : Latched) : Bool :=
  match l.fmt with
  | .tc332 | .tc565 | .tc565s | .tc888 => l.alpha
  | .trueColorAlpha => true
  | .trueColor | .trueColorChroma | .a1 | .a2 | .a4 | .a8 | .i1 | .i2 | .i4 | .i8 | .raw | .rawAlpha | .rawChroma
  | .planar565a8 => false

/-- EffSwap (30 R93). -/
def effSwap (l : Latched) : Bool := if isComposite l.fmt && !l.out then false else l.swap

/-- NSUB (44 R174). -/
def nSub (f : Fmt) (out : Bool) : Nat := if isComposite f && !out then 4 else 1

/-- NPASS (44 R174). -/
def nPass (f : Fmt) : Nat := if f = .planar565a8 then 2 else 1

/-- The sub-conversions 0 to NSUB(L) - 1. -/
def subsOf (l : Latched) : List (BitVec 2) := if nSub l.fmt l.out = 4 then [0, 1, 2, 3] else [0]

/-- L.W * L.H = 0: the image has no pixels (44 R170). -/
def noPixels (l : Latched) : Bool := l.w.toNat * l.h.toNat == 0

/-- The channel depths of a true-colour encoder (40 R107); none for every other encoder, so `isSome` is truecolour(e). -/
def depths : Encoder → Option (Rgb Nat)
  | .tc332 => some ⟨3, 3, 2⟩
  | .tc565 | .tc565s | .pl565 => some ⟨5, 6, 5⟩
  | .tc888 | .tc8888 => some ⟨8, 8, 8⟩
  | .pla8 | .a1 | .a2 | .a4 | .a8 | .i1 | .i2 | .i4 | .i8 | .raw => none

/-- truecolour(e) (43 R140, 44 R180). -/
def isTrueColour (e : Encoder) : Bool := (depths e).isSome

/-- The bits per pixel of an indexed encoder (42 R125); none for every other encoder. -/
def indexBits : Encoder → Option Nat
  | .i1 => some 1
  | .i2 => some 2
  | .i4 => some 4
  | .i8 => some 8
  | .tc332 | .tc565 | .tc565s | .tc888 | .tc8888 | .pl565 | .pla8 | .a1 | .a2 | .a4 | .a8 | .raw => none

/-- The encoder of the pass and sub-conversion at the cursor. -/
def currentEncoder (s : State) : Option Encoder := encSel s.l s.cur.sub s.cur.pass

/-- The tie rule QROUND of a user of the Quantizer (00 R7, 40 R102). -/
def tieRule (p : Params) (u : QuantUser) : TieRule := if u ∈ p.halfUpUsers then .halfUp else .halfDown

/-! Addresses and lengths. -/

/-- ceilDiv (00 R9) of naturals. -/
def ceilDiv (a b : Nat) : Nat := (a + b - 1) / b

/-- The address of pixel (x, y) in RASTER and REMAP (20 R61, R63). -/
def pixelAddr (l : Latched) (x y : Nat) : Nat := 4 * (l.w.toNat * y + x)

/-- Bytes per packed row of a format with k bits per pixel (20 R70, R71). -/
def stride (w k : Nat) : Nat := ceilDiv w (8 / k)

/-- The byte that holds the field of pixel (x, y) (20 R70). -/
def fieldAddr (base w k x y : Nat) : Nat := base + stride w k * y + x / (8 / k)

/-- The left shift of the field of pixel x within its byte (20 R70). -/
def fieldShift (k x : Nat) : Nat := 8 - k - k * (x % (8 / k))

/-- ExpLen (43 R162). None only where EncSel has no value (log 12). -/
def expLen (l : Latched) (s : BitVec 2) : Option Nat :=
  let w := l.w.toNat
  let h := l.h.toNat
  let a := (effAlpha l).toNat
  match encSel l s false with
  | some .tc332 => some ((1 + a) * w * h)
  | some .tc565 | some .tc565s => some ((2 + a) * w * h)
  | some .tc888 | some .tc8888 => some ((3 + a) * w * h)
  | some .pl565 | some .pla8 => some (3 * w * h)
  | some .a1 => some (stride w 1 * h)
  | some .a2 => some (stride w 2 * h)
  | some .a4 => some (stride w 4 * h)
  | some .a8 => some (w * h)
  | some .i1 => some (8 + stride w 1 * h)
  | some .i2 => some (16 + stride w 2 * h)
  | some .i4 => some (64 + stride w 4 * h)
  | some .i8 => some (1024 + w * h)
  | some .raw => some l.rawlen.toNat
  | none => none

end Sys2Proof.Machine
end

