-- ==== Sys2Proof/Machine/Ops.lean ====
section
/-! DEFINITION. The shared operations: error entry and how a command runs (60 R215 to R220), reads of the input memories, the
output-buffer primitives (20 R65, 43 R150), the cursor (44 R178, R179) and the dither state (44 R185). -/

namespace Sys2Proof.Machine

/-! ### Errors -/

/-- Error entry (60 R215): the one shared operation every `raise` takes. What it does not name keeps its value. The palette
hold ends because BUSY does. -/
def raiseError (c : ErrCode) (s : State) : State :=
  { s with status := s.status.enterError c, pq := [], waiting := false, ostream := [], outlen := 0 }

/-- How a command's pseudocode ends before its end: a `raise` (00 R11) or the model fault. -/
inductive Stop where
  | raise (c : ErrCode)
  | fault (f : Fault)
deriving DecidableEq, Repr

/-- A check of a command's pseudocode: go on, or raise. -/
def require (ok : Bool) (c : ErrCode) : Except Stop Unit := if ok then .ok () else .error (.raise c)

/-- The outcome of a command that ran in `s`: a raise enters the error state from `s`, since every check of a command
precedes its writes (00 R12). -/
def settle (s : State) : Except Stop State → Host.Outcome State Fault Refusal
  | .ok s' => .next s'
  | .error (.raise c) => .next (raiseError c s)
  | .error (.fault f) => .fault f

/-- Every command but INIT and RUN: no effect while ERR = 1 (60 R218), else its pseudocode. -/
def runCommand (s : State) (body : State → Except Stop State) : Host.Outcome State Fault Refusal :=
  if s.status.err then .next s else settle s (body s)

/-! ### Reading the input memories (00 R11, 10 R47) -/

/-- One byte of an input memory; a byte that nothing has written is the fault UNWRITTEN_INPUT. -/
def fetchByte (sp : Space) (m : Memory) (a : Nat) : Except Stop Byte :=
  match Memory.read m a with
  | some b => .ok b
  | none => .error (.fault (.unwrittenInput sp a))

/-- `n` bytes in ascending address order. -/
def fetchBytes (sp : Space) (m : Memory) : Nat → Nat → Except Stop (List Byte)
  | _, 0 => .ok []
  | a, n + 1 => do
    let b ← fetchByte sp m a
    let t ← fetchBytes sp m (a + 1) n
    return b :: t

/-- The four bytes R, G, B, A of a pixel (20 R61, R63). -/
def fetchColor (sp : Space) (m : Memory) (a : Nat) : Except Stop Color := do
  let r ← fetchByte sp m a
  let g ← fetchByte sp m (a + 1)
  let b ← fetchByte sp m (a + 2)
  let al ← fetchByte sp m (a + 3)
  return { r := r, g := g, b := b, a := al }

/-- A row of `n` pixels from address `a`. -/
def fetchRow (sp : Space) (m : Memory) : Nat → Nat → Except Stop (List Color)
  | _, 0 => .ok []
  | a, n + 1 => do
    let c ← fetchColor sp m a
    let t ← fetchRow sp m (a + 4) n
    return c :: t

/-- `h` rows of `w` pixels from address `a`. -/
def fetchRows (sp : Space) (m : Memory) (w : Nat) : Nat → Nat → Except Stop (List (List Color))
  | _, 0 => .ok []
  | a, h + 1 => do
    let r ← fetchRow sp m a w
    let t ← fetchRows sp m w (a + 4 * w) h
    return r :: t

/-- The colour samples of the pixel at the cursor. QPIX does not read the alpha sample (41 R113). -/
def sampleRgb (s : State) : Except Stop (Rgb Byte) := do
  let a := pixelAddr s.l s.cur.x.toNat s.cur.y.toNat
  let r ← fetchByte .raster s.raster a
  let g ← fetchByte .raster s.raster (a + 1)
  let b ← fetchByte .raster s.raster (a + 2)
  return { r := r, g := g, b := b }

/-- The alpha sample of the pixel at the cursor. -/
def sampleAlpha (s : State) : Except Stop Byte :=
  fetchByte .raster s.raster (pixelAddr s.l s.cur.x.toNat s.cur.y.toNat + 3)

/-- The trailing alpha bytes of a true-colour pixel: the alpha sample when EffAlpha(L) = 1, else none (43 R147). The sample
is read only where its value is used (log 6). -/
def trailingAlpha (s : State) : Except Stop (List Byte) :=
  if effAlpha s.l then do
    let a ← sampleAlpha s
    return [a]
  else .ok []

/-! ### The output buffer of the current sub-conversion (20 R65) -/

/-- The output buffer of the current sub-conversion. -/
def curObuf (s : State) : Memory := s.obuf.get s.cur.sub

/-- The state with the output buffer of the current sub-conversion replaced. -/
def setCurObuf (s : State) (m : Memory) : State := { s with obuf := s.obuf.set s.cur.sub m }

/-- OBufAppend (20 R65). -/
def obufAppend (s : State) (bytes : List Byte) : State :=
  setCurObuf s (Memory.writeList (curObuf s) (Memory.len (curObuf s)) bytes)

/-- OBufSet (20 R65). -/
def obufSet (s : State) (i : Nat) (b : Byte) : State := setCurObuf s (Memory.write (curObuf s) i b)

/-- OBufOr (20 R65): an unwritten byte counts as 0. -/
def obufOr (s : State) (i : Nat) (v : Byte) : State :=
  setCurObuf s (Memory.write (curObuf s) i ((Memory.read (curObuf s) i).getD 0 ||| v))

/-- The byte a k-bit field is placed in, as PackField ORs it: v << (8 - k - k*(x mod ppb)) (43 R150). -/
def fieldByte (k x : Nat) (v : Byte) : Byte := v <<< fieldShift k x

/-- PackField at the cursor, k in 1, 2, 4 (43 R150). -/
def packField (s : State) (base k : Nat) (v : Byte) : State :=
  obufOr s (fieldAddr base s.l.w.toNat k s.cur.x.toNat s.cur.y.toNat) (fieldByte k s.cur.x.toNat v)

/-- The byte an 8-bit field is placed in (43 R150 PackByte). -/
def byteAddr (s : State) (base : Nat) : Nat := base + s.l.w.toNat * s.cur.y.toNat + s.cur.x.toNat

/-- PackByte at the cursor, k = 8 (43 R150). -/
def packByte (s : State) (base : Nat) (v : Byte) : State := obufSet s (byteAddr s base) v

/-! ### The cursor (44 R178, R179) -/

/-- X and Y after the advance, before the end of the pass is looked at (44 R178), with 16 bits (log 20). -/
def Cursor.nextXY (c : Cursor) (l : Latched) : Cursor :=
  if c.x + 1 = l.w then { c with x := 0, y := c.y + 1 } else { c with x := c.x + 1 }

/-- complete(s) (44 R179). -/
def complete (s : State) (i : BitVec 2) : State := { s with status := s.status.complete i }

/-- cursor <- next (44 R178). -/
def advance (s : State) : State :=
  let c := s.cur.nextXY s.l
  if c.y = s.l.h then
    if c.pass.toNat + 1 < nPass s.l.fmt then { s with cur := { c with pass := true, y := 0 } }
    else complete { s with cur := c } c.sub
  else { s with cur := c }

/-! ### The per-image state that INIT and SUBC reset -/

/-- Zeroes for one channel's accumulator, length W + 2 (10 R42). -/
def zeroEarr (w : BitVec 16) : List Int := List.replicate (w.toNat + 2) 0

/-- NERR <- 0, EARR <- 0, ACT <- 0, PALV <- 0, ACTV <- 0, cursor <- (i, 0, 0, 0) (44 R170, R175, R185). -/
def freshSub (s : State) (i : BitVec 2) : State :=
  { s with
    status := { s.status with palv := false, actv := false }
    act := ⟨0, 0, 0⟩
    nerr := ⟨0, 0, 0⟩
    earr := ⟨zeroEarr s.l.w, zeroEarr s.l.w, zeroEarr s.l.w⟩
    cur := { sub := i, pass := false, y := 0, x := 0 } }

/-! ### The template of the pixel encoders (43 R140) -/

/-- check_e (43 R140): ACTV for a true-colour encoder, PALV for an indexed one. -/
def encoderReady (e : Encoder) (t : Status) : Bool :=
  if isTrueColour e then t.actv else if (indexBits e).isSome then t.palv else true

/-- What an encoder does after it has written its pixel (43 R140). -/
def afterPixel (e : Encoder) (s : State) : State :=
  advance (if isTrueColour e then { s with status := { s.status with actv := false } } else s)

/-- The checks every encoder makes first (43 R140, R161). -/
def encoderChecks (e : Encoder) (s : State) : Except Stop Unit := do
  require (s.status.initOk && !s.status.subDone s.cur.sub) .cmdIllegal
  require (currentEncoder s == some e) .cmdIllegal
  require (encoderReady e s.status) .cmdIllegal

/-- The template of 43 R140, with `write` for the encoder's own rule. -/
def pixelEncoder (e : Encoder) (write : State → Except Stop State) (s : State) :
    Host.Outcome State Fault Refusal :=
  runCommand s fun s => do
    encoderChecks e s
    let s' ← write s
    return afterPixel e s'

end Sys2Proof.Machine
end

