-- ==== Sys2Proof/Machine/AlphaBitmap.lean ====
section
/-! DEFINITION. The alpha-only bitmap encoders (43 R151 to R155). -/

namespace Sys2Proof.Machine

/-- alphaVal (43 R151): a strict threshold at 1 bit, the top bits at 2 and 4, the sample itself at 8. -/
def alphaVal (k : Nat) (a : Byte) : Byte :=
  match k with
  | 1 => if a.toNat > 0x80 then 1 else 0
  | 2 => a >>> 6
  | 4 => a >>> 4
  | _ => a

/-- The own rule of ENC.A1, ENC.A2 and ENC.A4 (43 R152 to R154). -/
def alphaField (k : Nat) (s : State) : Except Stop State := do
  let a ← sampleAlpha s
  return packField s 0 k (alphaVal k a)

/-- ENC.A1 (43 R152). -/
def execEncA1 (s : State) : Host.Outcome State Fault Refusal := pixelEncoder .a1 (alphaField 1) s

/-- ENC.A2 (43 R153). -/
def execEncA2 (s : State) : Host.Outcome State Fault Refusal := pixelEncoder .a2 (alphaField 2) s

/-- ENC.A4 (43 R154). -/
def execEncA4 (s : State) : Host.Outcome State Fault Refusal := pixelEncoder .a4 (alphaField 4) s

/-- ENC.A8 (43 R155). -/
def execEncA8 (s : State) : Host.Outcome State Fault Refusal :=
  pixelEncoder .a8 (fun s => do
    let a ← sampleAlpha s
    return packByte s 0 (alphaVal 8 a)) s

end Sys2Proof.Machine
end

