-- ==== Sys2Proof/Machine/Quantizer.lean ====
section
/-! DEFINITION. The Quantizer (40_quantizer.md): the rounding primitives of 00 R10, `truncTo`, and TRUNC. -/

namespace Sys2Proof.Machine

/-- ceil(a / b) for b > 0 (00 R9); Lean's `/` on integers is the floor for a positive divisor. -/
def ceilDivInt (a b : Int) : Int := -((-a) / b)

/-- rndHalfDown (00 R10). -/
def rndHalfDown (n d : Int) : Int := ceilDivInt (2 * n - d) (2 * d)

/-- rndHalfUp (00 R10). -/
def rndHalfUp (n d : Int) : Int := (2 * n + d) / (2 * d)

/-- rndHalfAway (00 R10). -/
def rndHalfAway (n d : Int) : Int := n.sign * ((2 * (n.natAbs : Int) + d) / (2 * d))

/-- rndQ (00 R10). -/
def rndQ (r : TieRule) (n d : Int) : Int :=
  match r with
  | .halfDown => rndHalfDown n d
  | .halfUp => rndHalfUp n d

/-- rnd16 (00 R10). -/
def rnd16 (r : ShareRule) (n : Int) : Int :=
  match r with
  | .halfUpPos => rndHalfUp n 16
  | .halfAway => rndHalfAway n 16

/-- clamp(lo, hi, v) (00 R9). -/
def clamp (lo hi v : Int) : Int := min hi (max lo v)

/-- step = 2^(8 - bits) (40 R101). -/
def quantStep (bits : Nat) : Int := 2 ^ (8 - bits)

/-- qmax = (2^bits - 1) * step (40 R103). -/
def quantMax (bits : Nat) : Int := (2 ^ bits - 1) * quantStep bits

/-- trunc(v, bits) (40 R100), for bits in 1..8, on every integer v (40 R105). -/
def truncTo (r : TieRule) (v : Int) (bits : Nat) : Int :=
  clamp 0 (quantMax bits) (rndQ r v (quantStep bits) * quantStep bits)

/-- The pseudocode of TRUNC (40 R106). -/
def truncBody (value : BitVec 12) (bits : BitVec 4) (s : State) : Except Stop State := do
  require (decide (1 ≤ bits.toNat) && decide (bits.toNat ≤ 8)) .cmdIllegal
  return { s with res := BitVec.ofInt 32 (truncTo (tieRule s.params .truncCommand) value.toInt bits.toNat) }

/-- TRUNC (40 R106). -/
def execTrunc (value : BitVec 12) (bits : BitVec 4) (s : State) : Host.Outcome State Fault Refusal :=
  runCommand s (truncBody value bits)

end Sys2Proof.Machine
end

