-- ==== Sys2Proof/Machine/Disperser.lean ====
section
/-! DEFINITION. The Disperser (41_disperser.md): ROWS and QPIX. -/

namespace Sys2Proof.Machine

/-- The pseudocode of ROWS (41 R112). EARR is not touched. -/
def rowsBody (s : State) : Except Stop State := do
  require s.status.initOk .cmdIllegal
  return { s with nerr := ⟨0, 0, 0⟩ }

/-- ROWS (41 R112). -/
def execRows (s : State) : Host.Outcome State Fault Refusal := runCommand s rowsBody

/-- One entry of an accumulator increased (41 R114: additive, not overwrite). -/
def addAt (e : List Int) (i : Nat) (v : Int) : List Int := e.set i (e.getD i 0 + v)

/-- The working value: sample + carried error + accumulator[x+1] (41 R114). -/
def workingValue (smp : Byte) (nerr : Int) (earr : List Int) (x : Nat) : Int :=
  (smp.toNat : Int) + nerr + earr.getD (x + 1) 0

/-- The accumulator after a pixel with the residual `res`: entry x+1 is cleared before the three shares are added
(41 R114, R116). -/
def spread (r : ShareRule) (earr : List Int) (x : Nat) (res : Int) : List Int :=
  addAt (addAt (addAt (earr.set (x + 1) 0) x (rnd16 r (3 * res))) (x + 1) (rnd16 r (5 * res))) (x + 2) (rnd16 r (1 * res))

/-- What a channel's step leaves: the quantized value, the carried error and the accumulator. -/
structure ChannelStep where
  q : Int
  nerr : Int
  earr : List Int
deriving DecidableEq, Repr

/-- disperse(c, x, s, b) for one channel (41 R114). The residual is the ORIGINAL sample minus the quantized value. -/
def disperse (t : TieRule) (r : ShareRule) (x : Nat) (smp : Byte) (bits : Nat) (nerr : Int) (earr : List Int) : ChannelStep :=
  let q := truncTo t (workingValue smp nerr earr x) bits
  let res := (smp.toNat : Int) - q
  { q := q, nerr := rnd16 r (7 * res), earr := spread r earr x res }

/-- The channel's step with the Disperser bypassed (41 R115). -/
def bypass (t : TieRule) (smp : Byte) (bits : Nat) (nerr : Int) (earr : List Int) : ChannelStep :=
  { q := truncTo t (smp.toNat : Int) bits, nerr := nerr, earr := earr }

/-- One channel of QPIX (41 R113). -/
def channelStep (s : State) (e : Encoder) (smp : Byte) (bits : Nat) (nerr : Int) (earr : List Int) : ChannelStep :=
  if s.l.dith then disperse (tieRule s.params (.encoder e)) s.params.dround s.cur.x.toNat smp bits nerr earr
  else bypass (tieRule s.params (.encoder e)) smp bits nerr earr

/-- The state after the three channels of QPIX, which are independent (41 R113, R116). -/
def quantizePixel (s : State) (e : Encoder) (d : Rgb Nat) (smp : Rgb Byte) : State :=
  let cr := channelStep s e smp.r d.r s.nerr.r s.earr.r
  let cg := channelStep s e smp.g d.g s.nerr.g s.earr.g
  let cb := channelStep s e smp.b d.b s.nerr.b s.earr.b
  { s with
    act := ⟨BitVec.ofInt 8 cr.q, BitVec.ofInt 8 cg.q, BitVec.ofInt 8 cb.q⟩
    nerr := ⟨cr.nerr, cg.nerr, cb.nerr⟩
    earr := ⟨cr.earr, cg.earr, cb.earr⟩
    status := { s.status with actv := true } }

/-- The true-colour encoder at the cursor with its depths, or CMD_ILLEGAL (41 R111, R113). -/
def trueColourAt (s : State) : Except Stop (Encoder × Rgb Nat) :=
  match currentEncoder s with
  | some e =>
    match depths e with
    | some d => .ok (e, d)
    | none => .error (.raise .cmdIllegal)
  | none => .error (.raise .cmdIllegal)

/-- The pseudocode of QPIX (41 R113). -/
def qpixBody (s : State) : Except Stop State := do
  require (s.status.initOk && !s.status.subDone s.cur.sub) .cmdIllegal
  let ed ← trueColourAt s
  require (!s.status.actv) .cmdIllegal
  let smp ← sampleRgb s
  return quantizePixel s ed.1 ed.2 smp

/-- QPIX (41 R113). -/
def execQpix (s : State) : Host.Outcome State Fault Refusal := runCommand s qpixBody

end Sys2Proof.Machine
end

