-- ==== Sys2Proof/WellFormed.lean ====
section
/-! DEFINITION. Which commands the assembler writes (30 R95). The decoder reads more: TRUNC with another bit count decodes and
raises CMD_ILLEGAL when it runs (30 R82, 40 R106). -/

namespace Sys2Proof

/-- The operand ranges of 30 R95: `bits` of TRUNC is 1 to 8. The 12-bit value and the 2-bit sub-conversion index take every
value of their fields. -/
def Instr.wellFormed : Instr → Bool
  | .trunc _ bits => decide (1 ≤ bits.toNat) && decide (bits.toNat ≤ 8)
  | .subc _ => true
  | .init | .run | .palb | .rows | .qpix | .palr | .hdr | .serb | .sert => true
  | .encTc332 | .encTc565 | .encTc565s | .encTc888 | .encTc8888 | .encPl565 | .encPla8 => true
  | .encA1 | .encA2 | .encA4 | .encA8 | .encI1 | .encI2 | .encI4 | .encI8 | .encRaw => true

end Sys2Proof
end

