-- ==== Sys2Proof/Decode.lean ====
section
/-! DEFINITION. The decoder (30 R80 to R87), total on every 32-bit word and rejecting by name, and the encoder (30 R95, R97). -/

namespace Sys2Proof

/-- Why a word is no command. Both are answered by CMD_ILLEGAL (30 R85, R86). -/
inductive DecodeError where
  /-- OP is not in the opcode map (30 R85) -/
  | illegalOpcode
  /-- a bit outside the command's format is 1 (30 R86) -/
  | reservedBits
deriving DecidableEq, Repr

/-- OP = cmd[7:0] (30 R80). -/
def opField (w : Word) : BitVec 8 := w.extractLsb' 0 8

/-- V = cmd[19:8], format T (30 R81). -/
def valueField (w : Word) : BitVec 12 := w.extractLsb' 8 12

/-- BITS = cmd[23:20], format T (30 R81). -/
def bitsField (w : Word) : BitVec 4 := w.extractLsb' 20 4

/-- SUB = cmd[9:8], format S (30 R81). -/
def subField (w : Word) : BitVec 2 := w.extractLsb' 8 2

/-- The commands of format N by opcode (30 R84). -/
def formatN : List (BitVec 8 × Instr) :=
  [(0x01, .init), (0x02, .run), (0x03, .palb), (0x04, .rows), (0x05, .qpix),
   (0x07, .palr), (0x08, .hdr), (0x09, .serb), (0x0A, .sert),
   (0x40, .encTc332), (0x41, .encTc565), (0x42, .encTc565s), (0x43, .encTc888),
   (0x44, .encA1), (0x45, .encA2), (0x46, .encA4), (0x47, .encA8),
   (0x48, .encI1), (0x49, .encI2), (0x4A, .encI4), (0x4B, .encI8),
   (0x4C, .encRaw), (0x4D, .encTc8888), (0x4E, .encPl565), (0x4F, .encPla8)]

/-- The decoder: the command from OP alone, then the reserved bits of its format (30 R86, R87). -/
def decode (w : Word) : Except DecodeError Instr :=
  if opField w = 0x06 then
    if w.extractLsb' 24 8 = 0 then .ok (.trunc (valueField w) (bitsField w)) else .error .reservedBits
  else if opField w = 0x0B then
    if w.extractLsb' 10 22 = 0 then .ok (.subc (subField w)) else .error .reservedBits
  else
    match formatN.lookup (opField w) with
    | some i => if w.extractLsb' 8 24 = 0 then .ok i else .error .reservedBits
    | none => .error .illegalOpcode

/-- The opcode of each command (30 R84). -/
def Instr.opcode : Instr → BitVec 8
  | .init => 0x01
  | .run => 0x02
  | .palb => 0x03
  | .rows => 0x04
  | .qpix => 0x05
  | .trunc _ _ => 0x06
  | .palr => 0x07
  | .hdr => 0x08
  | .serb => 0x09
  | .sert => 0x0A
  | .subc _ => 0x0B
  | .encTc332 => 0x40
  | .encTc565 => 0x41
  | .encTc565s => 0x42
  | .encTc888 => 0x43
  | .encA1 => 0x44
  | .encA2 => 0x45
  | .encA4 => 0x46
  | .encA8 => 0x47
  | .encI1 => 0x48
  | .encI2 => 0x49
  | .encI4 => 0x4A
  | .encI8 => 0x4B
  | .encRaw => 0x4C
  | .encTc8888 => 0x4D
  | .encPl565 => 0x4E
  | .encPla8 => 0x4F

/-- The bits [31:8] of a command word: the operand fields of its format, every other bit 0 (30 R81). -/
def Instr.operandBits : Instr → BitVec 24
  | .trunc value bits => (0 : BitVec 8) ++ bits ++ value
  | .subc sub => (0 : BitVec 22) ++ sub
  | .init | .run | .palb | .rows | .qpix | .palr | .hdr | .serb | .sert => 0
  | .encTc332 | .encTc565 | .encTc565s | .encTc888 | .encTc8888 | .encPl565 | .encPla8 => 0
  | .encA1 | .encA2 | .encA4 | .encA8 | .encI1 | .encI2 | .encI4 | .encI8 | .encRaw => 0

/-- The word of a command (30 R95, R97). -/
def encode (i : Instr) : Word := i.operandBits ++ i.opcode

/-- The instruction the decoder reads from a command of `nbits` bits with the value `w`. A command is one 32-bit word with no
byte order of its own (20 R69, 30 R80). -/
def decodeTableWord (nbits w : Nat) : Option Instr :=
  if w % 2 ^ nbits < 2 ^ 32 then (decode (BitVec.ofNat 32 (w % 2 ^ nbits))).toOption else none

end Sys2Proof
end

