-- ==== Sys2Proof/Machine/FrameDriver.lean ====
section
/-! DEFINITION. The Frame Driver (44_frame_driver.md): INIT, SUBC, Prog(L) and RUN. -/

namespace Sys2Proof.Machine

/-! ### INIT -/

/-- What INIT clears before it checks anything (44 R170). -/
def clearOutcome (s : State) : State := { s with status := s.status.clearOutcome, ostream := [], outlen := 0 }

/-- BINSUB 5 to 7 in a binary composite request (30 R89, 44 R171). -/
def badBinsub (f : Fmt) (cfg : Word) : Bool :=
  cfgOut cfg && isComposite f && decide (5 ≤ (cfgBinsub cfg).toNat)

/-- BINSUB 0 in a binary composite request (44 R171). -/
def noBinsub (f : Fmt) (cfg : Word) : Bool :=
  cfgOut cfg && isComposite f && decide ((cfgBinsub cfg).toNat = 0)

/-- validate(CFG, INSTAT) (44 R171), in the order of 60 R219; the answer is the format. -/
def validate (p : Params) (cfg instat : Word) : Except Stop Fmt :=
  match fmtOfCode (cfgFmt cfg) with
  | none => .error (.raise .ceUnknownFormat)
  | some f => do
    require (!badBinsub f cfg) .ceUnknownFormat
    require (!noBinsub f cfg) .ceNoBinsub
    require (!(cfgOut cfg && (formatCode p f).isNone)) .ceNoFormatCode
    require (!(instatDecFail instat && !isRaw f)) .loadError
    return f

/-- dims(FMT, DIMS, ODIMS, INSTAT) (44 R172): width, height and the warning. -/
def chooseDims (dims odims instat : Word) : BitVec 16 × BitVec 16 × Bool :=
  if !instatDecFail instat then (dimsW dims, dimsH dims, false)
  else if instatOvrValid instat then (dimsW odims, dimsH odims, false)
  else (0, 0, true)

/-- latch(CFG, W, H, RAWLEN) (44 R173). -/
def latch (cfg : Word) (f : Fmt) (w h : BitVec 16) (rawlen : Word) : Latched :=
  { fmt := f, alpha := cfgAlpha cfg, out := cfgOut cfg, swap := cfgSwap cfg, dith := cfgDith cfg, binsub := cfgBinsub cfg
    w := w, h := h, rawlen := rawlen, nsub := nSub f (cfgOut cfg) }

/-- What INIT and SUBC do for an image without pixels: the sub-conversion is complete and the cursor is at its end
(44 R170, R175, R179). -/
def finishEmpty (s : State) (pass : Bool) : State :=
  complete { s with cur := { s.cur with y := s.l.h, pass := pass } } s.cur.sub

/-- INIT after its checks: latch, reset the per-image state, INIT_OK <- 1 (44 R170). -/
def startImage (l : Latched) (warn : Bool) (s : State) : State :=
  let s1 := freshSub
    { s with l := l, obuf := Obufs.empty, status := { s.status with warn := warn, subdone := 0 } } 0
  let s2 := if !isRaw l.fmt && noPixels l then finishEmpty s1 (nPass l.fmt == 2) else s1
  { s2 with status := { s2.status with initOk := true } }

/-- INIT from its checks on (44 R170), in the state that `clearOutcome` left. -/
def initBody (s : State) : Except Stop State := do
  let f ← validate s.params s.cfg s.instat
  let d := chooseDims s.dims s.odims s.instat
  require (!(cfgOut s.cfg && (decide (2047 < d.1.toNat) || decide (2047 < d.2.1.toNat)))) .ceDimsRange
  return startImage (latch s.cfg f d.1 d.2.1 s.rawlen) d.2.2 s

/-- INIT (44 R170): legal in every state, also while ERR = 1 (60 R217). -/
def execInit (s : State) : Host.Outcome State Fault Refusal := settle (clearOutcome s) (initBody (clearOutcome s))

/-! ### SUBC -/

/-- The pseudocode of SUBC (44 R175). -/
def subcBody (i : BitVec 2) (s : State) : Except Stop State := do
  require (s.status.initOk && decide (s.l.nsub = 4)) .cmdIllegal
  require (decide (i.toNat = s.cur.sub.toNat + 1) && s.status.subDone s.cur.sub) .cmdIllegal
  let s1 := freshSub { s with obuf := s.obuf.set i [] } i
  return (if noPixels s.l then finishEmpty s1 false else s1)

/-- SUBC (44 R175). -/
def execSubc (i : BitVec 2) (s : State) : Host.Outcome State Fault Refusal := runCommand s (subcBody i)

/-! ### Prog(L) and RUN -/

/-- The command of an encoder (30 R84). -/
def encoderInstr : Encoder → Instr
  | .tc332 => .encTc332
  | .tc565 => .encTc565
  | .tc565s => .encTc565s
  | .tc888 => .encTc888
  | .tc8888 => .encTc8888
  | .pl565 => .encPl565
  | .pla8 => .encPla8
  | .a1 => .encA1
  | .a2 => .encA2
  | .a4 => .encA4
  | .a8 => .encA8
  | .i1 => .encI1
  | .i2 => .encI2
  | .i4 => .encI4
  | .i8 => .encI8
  | .raw => .encRaw

/-- The commands of one pixel (44 R180). -/
def pixelProg (e : Encoder) : List Instr := if isTrueColour e then [.qpix, encoderInstr e] else [encoderInstr e]

/-- The commands of one row of w pixels (44 R180). -/
def rowProg (e : Encoder) (w : Nat) : List Instr :=
  (if isTrueColour e then [.rows] else []) ++ (List.replicate w (pixelProg e)).flatten

/-- The commands of one pass; none for an image without pixels (44 R180). -/
def passProg (l : Latched) (s : BitVec 2) (pass : Bool) : List Instr :=
  match encSel l s pass with
  | some e => if noPixels l then [] else (List.replicate l.h.toNat (rowProg e l.w.toNat)).flatten
  | none => []

/-- The commands of one sub-conversion (44 R180). -/
def subProg (l : Latched) (s : BitVec 2) : List Instr :=
  (if s = 0 then [] else [.subc s]) ++ (if isIndexed l.fmt then [.palb] else []) ++ passProg l s false ++
    (if nPass l.fmt = 2 then passProg l s true else [])

/-- Prog(L) (44 R180). -/
def prog (l : Latched) : List Instr :=
  (if isRaw l.fmt then [.encRaw] else (subsOf l).flatMap (subProg l)) ++ (if l.out then [.hdr, .serb] else [.sert])

/-- RUN after its INIT: BUSY <- 1, PQ <- Prog(L) as command words (44 R181, 10 R37). -/
def startRun (s : State) : State := { s with status := { s.status with busy := true }, pq := (prog s.l).map encode }

/-- RUN (44 R181): an INIT that raises ends it. -/
def execRun (s : State) : Host.Outcome State Fault Refusal :=
  settle (clearOutcome s) (do
    let s' ← initBody (clearOutcome s)
    return startRun s')

end Sys2Proof.Machine
end

