-- ==== Sys2Proof/Machine/Palette.lean ====
section
/-! DEFINITION. The Palette Adapter (42_palette.md): the collaborator, PALB, resolve and PALR. -/

namespace Sys2Proof.Machine

/-- P(k) = 2^k (42 R125). -/
def palSize (k : Nat) : Nat := 2 ^ k

/-- The colour of a zero-filled palette entry (42 R129). -/
def zeroColor : Color := { r := 0, g := 0, b := 0, a := 0 }

/-- PALQ (42 R128, R135): the answer the state's table lists for the request, else the opaque one (log 4). -/
def collaborator (s : State) (q : PalRequest) : PalAnswer :=
  match s.palq.lookup q with
  | some a => a
  | none => Config.palq q

/-- The palette size of the indexed encoder at the cursor, or CMD_ILLEGAL (42 R127, R134). -/
def paletteAt (s : State) : Except Stop Nat :=
  match currentEncoder s with
  | some e =>
    match indexBits e with
    | some k => .ok (palSize k)
    | none => .error (.raise .cmdIllegal)
  | none => .error (.raise .cmdIllegal)

/-- The legality checks of PALB (42 R127); the answer is the palette size. -/
def palbChecks (s : State) : Except Stop Nat := do
  require s.status.initOk .cmdIllegal
  let p ← paletteAt s
  require (!s.status.palv) .cmdIllegal
  return p

/-- image(L.W, L.H) read from RASTER (42 R127). -/
def rasterImage (s : State) : Except Stop (List (List Color)) :=
  fetchRows .raster s.raster s.l.w.toNat 0 s.l.h.toNat

/-- The request PALB makes with an image and a palette size (42 R128). -/
def palRequest (l : Latched) (image : List (List Color)) (p : Nat) : PalRequest :=
  { width := l.w.toNat, image := image, size := p }

/-- The collaborator contract (42 R132): at most P colours and one remapped colour for each pixel. -/
def answerOk (l : Latched) (p : Nat) (a : PalAnswer) : Bool :=
  decide (a.colors.length ≤ p) && decide (a.remap.length = l.h.toNat) && a.remap.all (fun row => row.length == l.w.toNat)

/-- The four bytes R, G, B, A of a colour as REMAP stores them (20 R63). -/
def rgbaBytes (c : Color) : List Byte := [c.r, c.g, c.b, c.a]

/-- The four bytes B, G, R, A of a colour as the palette region stores them (42 R130). -/
def bgraBytes (c : Color) : List Byte := [c.b, c.g, c.r, c.a]

/-- PAL after the build: the list, then zeroes up to 256 entries (42 R126, R129). -/
def paletteOf (colors : List Color) : List Color := colors ++ List.replicate (256 - colors.length) zeroColor

/-- The palette region, entry i at bytes 4i to 4i + 3 (42 R130). -/
def regionBytes (pal : List Color) (p : Nat) : List Byte := (pal.take p).flatMap bgraBytes

/-- What PALB does with the collaborator's answer (42 R127). -/
def acceptAnswer (p : Nat) (a : PalAnswer) (s : State) : Except Stop State := do
  require (answerOk s.l p a) .ieCollaborator
  return { setCurObuf s (Memory.writeList (curObuf s) 0 (regionBytes (paletteOf a.colors) p)) with
    remap := Memory.writeList s.remap 0 (a.remap.flatten.flatMap rgbaBytes)
    pal := paletteOf a.colors
    status := { s.status with palv := true } }

/-- PALB from its checks to its end, with the collaborator's answer (42 R127; 42 R128 "PALB as one step"). -/
def palbBody (s : State) : Except Stop State := do
  let p ← palbChecks s
  let image ← rasterImage s
  acceptAnswer p (collaborator s (palRequest s.l image p)) s

/-- PALB as it is issued to a collaborator that does not answer at once: the request is made and the block waits, BUSY = 1
(42 R128, 70 R239; log 5). -/
def palbHold (s : State) : Except Stop State := do
  let _ ← palbChecks s
  let _ ← rasterImage s
  return { s with waiting := true, status := { s.status with busy := true } }

/-- PALB (42 R127): one step when the collaborator answers at once, else the beginning of the palette hold. -/
def execPalb (s : State) : Host.Outcome State Fault Refusal :=
  runCommand s (if s.collabDefers then palbHold else palbBody)

/-- resolve(c) in a palette of size P (42 R133): the lowest index of an equal entry, all four channels compared. -/
def resolve (pal : List Color) (p : Nat) (c : Color) : Option Nat := (pal.take p).findIdx? (fun e => decide (e = c))

/-- resolve, a miss being the internal-invariant error (42 R134, 43 R156). -/
def resolveOrMiss (pal : List Color) (p : Nat) (c : Color) : Except Stop Nat :=
  match resolve pal p c with
  | some i => .ok i
  | none => .error (.raise .iePaletteMiss)

/-- The pseudocode of PALR (42 R134). -/
def palrBody (s : State) : Except Stop State := do
  require s.status.initOk .cmdIllegal
  let p ← paletteAt s
  require s.status.palv .cmdIllegal
  let i ← resolveOrMiss s.pal p (argColor s.arg)
  return { s with res := BitVec.ofNat 32 i }

/-- PALR (42 R134). -/
def execPalr (s : State) : Host.Outcome State Fault Refusal := runCommand s palrBody

end Sys2Proof.Machine
end

