-- ==== Sys2Proof/Machine/Indexed.lean ====
section
/-! DEFINITION. The indexed bitmap encoders (43 R156 to R160). -/

namespace Sys2Proof.Machine

/-- indexVal (43 R156) of the pixel at the cursor, with k bits. -/
def indexVal (k : Nat) (s : State) : Except Stop Nat := do
  let c ← fetchColor .remap s.remap (pixelAddr s.l s.cur.x.toNat s.cur.y.toNat)
  resolveOrMiss s.pal (palSize k) c

/-- The own rule of ENC.I1, ENC.I2 and ENC.I4 (43 R157 to R159): pixel data starts after the palette region, 4 * 2^k. -/
def indexField (k : Nat) (s : State) : Except Stop State := do
  let i ← indexVal k s
  return packField s (4 * palSize k) k (BitVec.ofNat 8 i)

/-- ENC.I1 (43 R157). -/
def execEncI1 (s : State) : Host.Outcome State Fault Refusal := pixelEncoder .i1 (indexField 1) s

/-- ENC.I2 (43 R158). -/
def execEncI2 (s : State) : Host.Outcome State Fault Refusal := pixelEncoder .i2 (indexField 2) s

/-- ENC.I4 (43 R159). -/
def execEncI4 (s : State) : Host.Outcome State Fault Refusal := pixelEncoder .i4 (indexField 4) s

/-- ENC.I8 (43 R160). -/
def execEncI8 (s : State) : Host.Outcome State Fault Refusal :=
  pixelEncoder .i8 (fun s => do
    let i ← indexVal 8 s
    return packByte s 1024 (BitVec.ofNat 8 i)) s

end Sys2Proof.Machine
end

