-- ==== Sys2Proof/Machine/Raw.lean ====
section
/-! DEFINITION. Raw passthrough (43 R161). -/

namespace Sys2Proof.Machine

/-- The pseudocode of ENC.RAW (43 R161): no cursor traversal; bytes 0 to L.RAWLEN - 1, then complete. -/
def encRawBody (s : State) : Except Stop State := do
  encoderChecks .raw s
  let bytes ← fetchBytes .rawin s.rawin 0 s.l.rawlen.toNat
  return complete (setCurObuf s (Memory.writeList (curObuf s) 0 bytes)) s.cur.sub

/-- ENC.RAW (43 R161). -/
def execEncRaw (s : State) : Host.Outcome State Fault Refusal := runCommand s encRawBody

end Sys2Proof.Machine
end

