-- ==== Sys2Proof/Machine/Text.lean ====
section
/-! DEFINITION. The text artifact (45 R197 to R204). Braces are written as byte values: no string of the model holds one. -/

namespace Sys2Proof.Machine

/-- LF, and the two braces. -/
def lf : Byte := 0x0A
def openBrace : Byte := 0x7B
def closeBrace : Byte := 0x7D

/-- One line: its text and LF (45 R197). -/
def line (t : List Byte) : List Byte := t ++ [lf]

/-- One line of fixed text. -/
def lineOf (t : String) : List Byte := line (ascii t)

/-- ASCII upper case, for `<NAMEU>` (45 R198). -/
def upper (b : Byte) : Byte := if 0x61 ≤ b.toNat ∧ b.toNat ≤ 0x7A then b - 0x20 else b

/-- A natural number in decimal without leading zeros (45 R203). -/
def decimal (n : Nat) : List Byte := (Nat.toDigits 10 n).map (fun c => BitVec.ofNat 8 c.toNat)

/-- One lower-case hex digit of a value below 16 (45 R201). -/
def hexDigit (n : Nat) : Byte := if n < 10 then BitVec.ofNat 8 (0x30 + n) else BitVec.ofNat 8 (0x57 + n)

/-- The literal of a byte: 0x, two lower-case hex digits, a comma (45 R201). -/
def literal (b : Byte) : List Byte := ascii "0x" ++ [hexDigit (b.toNat / 16), hexDigit (b.toNat % 16), 0x2C]

/-- The byte sequence cut into rows of `w` bytes, the last one shorter; `room` is what the row begun may still take. -/
def rowsOf (w : Nat) : Nat → List Byte → List Byte → List (List Byte)
  | _, row, [] => if row.isEmpty then [] else [row]
  | 0, row, b :: t => row :: rowsOf w (w - 1) [b] t
  | room + 1, row, b :: t => rowsOf w room (row ++ [b]) t

/-- The chunks of Lines(B) (45 R201). TEXT_WRAP is positive (00 R7); 0 counts as 1 (log 16). -/
def chunks (w : Nat) (b : List Byte) : List (List Byte) := rowsOf (max w 1) (max w 1) [] b

/-- One body line: two spaces, the literals separated by one space (45 R201). -/
def bodyLine (chunk : List Byte) : List Byte :=
  line (ascii "  " ++ (List.intersperse (ascii " ") (chunk.map literal)).flatten)

/-- Lines(B) (45 R201). -/
def bodyLines (p : Params) (b : List Byte) : List Byte := (chunks p.textWrap b).flatMap bodyLine

/-- Guard(s) (45 R202). -/
def guardLine (i : Nat) : List Byte :=
  match i with
  | 0 => lineOf "#if LV_COLOR_DEPTH == 1 || LV_COLOR_DEPTH == 8"
  | 1 => lineOf "#if LV_COLOR_DEPTH == 16 && LV_COLOR_16_SWAP == 0"
  | 2 => lineOf "#if LV_COLOR_DEPTH == 16 && LV_COLOR_16_SWAP != 0"
  | _ => lineOf "#if LV_COLOR_DEPTH == 32"

/-- `<NAMEU>` (45 R198). -/
def nameUpper (p : Params) : List Byte := p.name.map upper

/-- Pre(L) (45 R198): 22 lines. -/
def preamble (p : Params) : List Byte :=
  lineOf "#ifdef __has_include" ++
  lineOf "    #if __has_include(\"lvgl.h\")" ++
  lineOf "        #ifndef LV_LVGL_H_INCLUDE_SIMPLE" ++
  lineOf "            #define LV_LVGL_H_INCLUDE_SIMPLE" ++
  lineOf "        #endif" ++
  lineOf "    #endif" ++
  lineOf "#endif" ++
  lineOf "" ++
  lineOf "#if defined(LV_LVGL_H_INCLUDE_SIMPLE)" ++
  lineOf "    #include \"lvgl.h\"" ++
  lineOf "#else" ++
  lineOf "    #include \"lvgl/lvgl.h\"" ++
  lineOf "#endif" ++
  lineOf "" ++
  lineOf "#ifndef LV_ATTRIBUTE_MEM_ALIGN" ++
  lineOf "#define LV_ATTRIBUTE_MEM_ALIGN" ++
  lineOf "#endif" ++
  lineOf "" ++
  line (ascii "#ifndef LV_ATTRIBUTE_IMG_" ++ nameUpper p) ++
  line (ascii "#define LV_ATTRIBUTE_IMG_" ++ nameUpper p) ++
  lineOf "#endif" ++
  lineOf ""

/-- The array declaration (45 R200). -/
def declaration (p : Params) : List Byte :=
  line (ascii "const LV_ATTRIBUTE_MEM_ALIGN LV_ATTRIBUTE_LARGE_CONST LV_ATTRIBUTE_IMG_" ++ nameUpper p ++ ascii " uint8_t " ++
    p.name ++ ascii "_map[] = " ++ [openBrace])

/-- `<SIZE>` (45 R204); `len` is ExpLen(L, 0). -/
def dataSize (l : Latched) (len : Nat) : List Byte :=
  match l.fmt with
  | .trueColor | .trueColorChroma => decimal (l.w.toNat * l.h.toNat) ++ ascii " * LV_COLOR_SIZE / 8"
  | .trueColorAlpha => decimal (l.w.toNat * l.h.toNat) ++ ascii " * LV_IMG_PX_SIZE_ALPHA_BYTE"
  | .tc332 | .tc565 | .tc565s | .tc888 | .a1 | .a2 | .a4 | .a8 | .i1 | .i2 | .i4 | .i8 | .raw | .rawAlpha | .rawChroma
  | .planar565a8 => decimal len

/-- Desc(L) (45 R203): 9 lines. -/
def descriptor (p : Params) (l : Latched) (len : Nat) : List Byte :=
  line (ascii "const lv_img_dsc_t " ++ p.name ++ ascii " = " ++ [openBrace]) ++
  line (ascii "  .header.cf = " ++ cfName p l.fmt l.alpha ++ ascii ",") ++
  lineOf "  .header.always_zero = 0," ++
  lineOf "  .header.reserved = 0," ++
  line (ascii "  .header.w = " ++ decimal l.w.toNat ++ ascii ",") ++
  line (ascii "  .header.h = " ++ decimal l.h.toNat ++ ascii ",") ++
  line (ascii "  .data_size = " ++ dataSize l len ++ ascii ",") ++
  line (ascii "  .data = " ++ p.name ++ ascii "_map,") ++
  line ([closeBrace] ++ ascii ";")

/-- The guarded bodies of a composite text request, from sub-conversion i on (45 R197, R202). -/
def guardedBodies (p : Params) : Nat → List (List Byte) → List Byte
  | _, [] => []
  | i, b :: t => guardLine i ++ bodyLines p b ++ lineOf "#endif" ++ guardedBodies p (i + 1) t

/-- The body of Text(L) (45 R197): guarded when there are four sub-conversions. -/
def textBody (p : Params) (bodies : List (List Byte)) : List Byte :=
  match bodies with
  | [b] => bodyLines p b
  | bs => guardedBodies p 0 bs

/-- Text(L) (45 R197). `bodies` are the complete output buffers of the sub-conversions. -/
def textArtifact (p : Params) (l : Latched) (bodies : List (List Byte)) : List Byte :=
  preamble p ++ declaration p ++ textBody p bodies ++ line ([closeBrace] ++ ascii ";") ++ lineOf "" ++
    descriptor p l (bodies.headD []).length

end Sys2Proof.Machine
end

