-- ==== Sys2Proof/Machine/Serializer.lean ====
section
/-! DEFINITION. The Serializer (45_serializer.md): HDR, SERB and SERT. -/

namespace Sys2Proof.Machine

/-- The header word of a format code and dimensions (45 R192, 30 R94). -/
def headerWord (code : BitVec 10) (w h : BitVec 16) : Word :=
  code.setWidth 32 ||| (w.setWidth 32 <<< 10) ||| (h.setWidth 32 <<< 21)

/-- Hdr(L) (45 R192); none for a format with no code. -/
def hdr (p : Params) (l : Latched) : Option Word := (formatCode p l.fmt).map (fun c => headerWord c l.w l.h)

/-- W and H fit the header (45 R191, 30 R94). -/
def dimsFit (l : Latched) : Bool := decide (l.w.toNat ≤ 2047) && decide (l.h.toNat ≤ 2047)

/-- The header word, or CMD_ILLEGAL where the format has no code (45 R191). -/
def hdrOrIllegal (p : Params) (l : Latched) : Except Stop Word :=
  match hdr p l with
  | some w => .ok w
  | none => .error (.raise .cmdIllegal)

/-- The pseudocode of HDR (45 R191). -/
def hdrBody (s : State) : Except Stop State := do
  require s.status.initOk .cmdIllegal
  let w ← hdrOrIllegal s.params s.l
  require (dimsFit s.l) .cmdIllegal
  return { s with res := w }

/-- HDR (45 R191). -/
def execHdr (s : State) : Host.Outcome State Fault Refusal := runCommand s hdrBody

/-- The complete contents of one output buffer, or IE_INDEX_RANGE (45 R195). -/
def completeBody (s : State) (i : BitVec 2) : Except Stop (List Byte) :=
  match (expLen s.l i).bind (Memory.exactly (s.obuf.get i)) with
  | some b => .ok b
  | none => .error (.raise .ieIndexRange)

/-- The complete contents of the output buffers of the listed sub-conversions (45 R195). -/
def completeBodies (s : State) : List (BitVec 2) → Except Stop (List (List Byte))
  | [] => .ok []
  | i :: t => do
    let b ← completeBody s i
    let r ← completeBodies s t
    return b :: r

/-- SerCheck() (45 R195); the answer is the contents of the output buffers it found complete. -/
def serCheck (s : State) : Except Stop (List (List Byte)) := do
  require s.status.initOk .cmdIllegal
  require ((subsOf s.l).all (fun i => s.status.subDone i)) .cmdIllegal
  require (!isIndexed s.l.fmt || s.status.palv) .cmdIllegal
  completeBodies s (subsOf s.l)

/-- OUTLEN of an artifact of n bytes (10 R35); a free value above 0 when n does not fit 32 bits (log 8). -/
def outlenOf (n : Nat) : Word :=
  if n < 2 ^ 32 then BitVec.ofNat 32 n else BitVec.ofNat 32 ((Config.outlenBeyond n).val + 1)

/-- An artifact command's writes: OSTREAM, OUTLEN and DONE, nothing else (45 R205). -/
def setArtifact (s : State) (art : List Byte) : State :=
  { s with ostream := art, outlen := outlenOf art.length, status := { s.status with done := true } }

/-- le32(w) (45 R194, 20 R67). -/
def le32 (w : Word) : List Byte := [w.extractLsb' 0 8, w.extractLsb' 8 8, w.extractLsb' 16 8, w.extractLsb' 24 8]

/-- The pseudocode of SERB (45 R194). INIT lets no binary request through whose format has no code, so the check inside
`hdrOrIllegal` never fails in a reached state (log 12). -/
def serbBody (s : State) : Except Stop State := do
  let bodies ← serCheck s
  require s.l.out .cmdIllegal
  let w ← hdrOrIllegal s.params s.l
  return setArtifact s (le32 w ++ bodies.headD [])

/-- SERB (45 R194). -/
def execSerb (s : State) : Host.Outcome State Fault Refusal := runCommand s serbBody

/-- The pseudocode of SERT (45 R196). -/
def sertBody (s : State) : Except Stop State := do
  let bodies ← serCheck s
  require (!s.l.out) .cmdIllegal
  return setArtifact s (textArtifact s.params s.l bodies)

/-- SERT (45 R196). -/
def execSert (s : State) : Host.Outcome State Fault Refusal := runCommand s sertBody

end Sys2Proof.Machine
end

