-- ==== Sys2Proof/Machine/TrueColour.lean ====
section
/-! DEFINITION. The true-colour encoders and the alpha plane (43 R140 to R149). -/

namespace Sys2Proof.Machine

/-- The colour byte of ENC.TC332: R in [7:5], G in [4:2], B in [1:0] (43 R141). -/
def c8 (c : Rgb Byte) : Byte := c.r ||| (c.g >>> 3) ||| (c.b >>> 6)

/-- The 5-6-5 colour word (43 R142): R in [15:11], G in [10:5], B in [4:0]. -/
def c16 (c : Rgb Byte) : BitVec 16 :=
  ((c.r.setWidth 16 >>> 3) <<< 11) ||| ((c.g.setWidth 16 >>> 2) <<< 5) ||| (c.b.setWidth 16 >>> 3)

/-- w[7:0], w[15:8] (43 R143). -/
def lowFirst (w : BitVec 16) : List Byte := [w.extractLsb' 0 8, w.extractLsb' 8 8]

/-- w[15:8], w[7:0] (43 R143, R144). -/
def highFirst (w : BitVec 16) : List Byte := [w.extractLsb' 8 8, w.extractLsb' 0 8]

/-- The two colour bytes of a swap-aware 5-6-5 encoder (43 R143, R148). -/
def swappable565 (swap : Bool) (w : BitVec 16) : List Byte := if swap then highFirst w else lowFirst w

/-- A true-colour encoder whose pixel is `colour` then the trailing alpha byte, if any (43 R140, R147). -/
def appendPixel (colour : List Byte) (s : State) : Except Stop State := do
  let a ← trailingAlpha s
  return obufAppend s (colour ++ a)

/-- ENC.TC332 (43 R141). -/
def execEncTc332 (s : State) : Host.Outcome State Fault Refusal :=
  pixelEncoder .tc332 (fun s => appendPixel [c8 s.act] s) s

/-- ENC.TC565 (43 R143): the swap exchanges the two colour bytes only. -/
def execEncTc565 (s : State) : Host.Outcome State Fault Refusal :=
  pixelEncoder .tc565 (fun s => appendPixel (swappable565 (effSwap s.l) (c16 s.act)) s) s

/-- ENC.TC565S (43 R144): always the swapped order. -/
def execEncTc565s (s : State) : Host.Outcome State Fault Refusal :=
  pixelEncoder .tc565s (fun s => appendPixel (highFirst (c16 s.act)) s) s

/-- ENC.TC888 (43 R145): B, G, R. -/
def execEncTc888 (s : State) : Host.Outcome State Fault Refusal :=
  pixelEncoder .tc888 (fun s => appendPixel [s.act.b, s.act.g, s.act.r] s) s

/-- The pixel of ENC.TC8888 (43 R146): native order B, G, R (, A), reversed whole by the swap. -/
def tc8888Bytes (swap : Bool) (act : Rgb Byte) (alpha : List Byte) : List Byte :=
  if swap then ([act.b, act.g, act.r] ++ alpha).reverse else [act.b, act.g, act.r] ++ alpha

/-- ENC.TC8888 (43 R146). -/
def execEncTc8888 (s : State) : Host.Outcome State Fault Refusal :=
  pixelEncoder .tc8888 (fun s => do
    let a ← trailingAlpha s
    return obufAppend s (tc8888Bytes (effSwap s.l) s.act a)) s

/-- ENC.PL565 (43 R148): the colour plane, never an alpha byte. -/
def execEncPl565 (s : State) : Host.Outcome State Fault Refusal :=
  pixelEncoder .pl565 (fun s => .ok (obufAppend s (swappable565 (effSwap s.l) (c16 s.act)))) s

/-- ENC.PLA8 (43 R149): the alpha plane. -/
def execEncPla8 (s : State) : Host.Outcome State Fault Refusal :=
  pixelEncoder .pla8 (fun s => do
    let a ← sampleAlpha s
    return obufAppend s [a]) s

end Sys2Proof.Machine
end

