-- ==== Sys2Proof/Machine/Dispatch.lean ====
section
/-! DEFINITION. The meaning of every command: one arm per row of the opcode table (30 R84). -/

namespace Sys2Proof.Machine

-- One command, executed to its end (00 R12, 20 R75).
def exec (i : Instr) (s : State) : Host.Outcome State Fault Refusal :=
  match i with
  | .init => Sys2Proof.Machine.execInit s
  | .run => Sys2Proof.Machine.execRun s
  | .palb => Sys2Proof.Machine.execPalb s
  | .rows => Sys2Proof.Machine.execRows s
  | .qpix => Sys2Proof.Machine.execQpix s
  | .trunc value bits => Sys2Proof.Machine.execTrunc value bits s
  | .palr => Sys2Proof.Machine.execPalr s
  | .hdr => Sys2Proof.Machine.execHdr s
  | .serb => Sys2Proof.Machine.execSerb s
  | .sert => Sys2Proof.Machine.execSert s
  | .subc sub => Sys2Proof.Machine.execSubc sub s
  | .encTc332 => Sys2Proof.Machine.execEncTc332 s
  | .encTc565 => Sys2Proof.Machine.execEncTc565 s
  | .encTc565s => Sys2Proof.Machine.execEncTc565s s
  | .encTc888 => Sys2Proof.Machine.execEncTc888 s
  | .encA1 => Sys2Proof.Machine.execEncA1 s
  | .encA2 => Sys2Proof.Machine.execEncA2 s
  | .encA4 => Sys2Proof.Machine.execEncA4 s
  | .encA8 => Sys2Proof.Machine.execEncA8 s
  | .encI1 => Sys2Proof.Machine.execEncI1 s
  | .encI2 => Sys2Proof.Machine.execEncI2 s
  | .encI4 => Sys2Proof.Machine.execEncI4 s
  | .encI8 => Sys2Proof.Machine.execEncI8 s
  | .encRaw => Sys2Proof.Machine.execEncRaw s
  | .encTc8888 => Sys2Proof.Machine.execEncTc8888 s
  | .encPl565 => Sys2Proof.Machine.execEncPl565 s
  | .encPla8 => Sys2Proof.Machine.execEncPla8 s

end Sys2Proof.Machine
end

