-- ==== Sys2Proof/Machine/HostPort.lean ====
section
/-! DEFINITION. The register window and the memories as the host reaches them (10 R21 to R31, 20 R60, R74, 60 R226). Writing
CMD is in Machine/Sequencer.lean. -/

namespace Sys2Proof.Machine

/-- CUR: X in [15:0], Y in [31:16] (10 R36). -/
def curWord (c : Cursor) : Word := c.y ++ c.x

/-- CURP: PASS in [0], SUB in [2:1] (10 R36). -/
def curpWord (c : Cursor) : Word := (0 : BitVec 29) ++ c.sub ++ BitVec.ofBool c.pass

/-- What a register read gives (10 R21); CMD and the reserved offsets read 0 (10 R22, R31). -/
def registerValue (s : State) (offset : Nat) : Word :=
  match offset with
  | 0x00 => s.cfg
  | 0x04 => s.dims
  | 0x08 => s.odims
  | 0x0C => s.instat
  | 0x10 => s.rawlen
  | 0x14 => s.arg
  | 0x18 => 0
  | 0x1C => s.status.word
  | 0x20 => s.res
  | 0x24 => s.outlen
  | 0x28 => curWord s.cur
  | 0x2C => curpWord s.cur
  | _ => 0

/-- A register write other than CMD (10 R21): reserved bits of CFG and INSTAT stay 0 (10 R25, R28); read-only registers and
reserved offsets ignore it (10 R21, R22). -/
def storeRegister (s : State) (offset : Nat) (v : Word) : State :=
  match offset with
  | 0x00 => { s with cfg := v &&& 0x00000FFF }
  | 0x04 => { s with dims := v }
  | 0x08 => { s with odims := v }
  | 0x0C => { s with instat := v &&& 0x00000003 }
  | 0x10 => { s with rawlen := v }
  | 0x14 => { s with arg := v }
  | _ => s

/-- The form of a register access: 32 bits wide, 4-byte aligned, inside the window 0x00 to 0xFF (20 R60, R74). -/
def registerAccess (offset bytes : Nat) (k : Host.Outcome State Fault Refusal) : Host.Outcome State Fault Refusal :=
  if bytes ≠ 4 ∨ offset % 4 ≠ 0 then .refused .accessShape
  else if 0xFF < offset then .refused .outsideWindow
  else k

/-- The offset is that of a register, not a reserved one (10 R21, R22). DEDUCED that the duty of 70 R238 does not
reach the reserved ones (log 18). -/
def isRegister (offset : Nat) : Bool := decide (offset ≤ 0x2C)

/-- A conversion is in progress: from INIT to its end (44 R183, R186; log 9). -/
def converting (t : Status) : Bool := t.busy || (t.initOk && !t.done)

/-- A register read (20 R75: no side effect on the block). -/
def readRegister (s : State) (offset bytes : Nat) : Host.Outcome State Fault Refusal :=
  registerAccess offset bytes (.next { s with hostData := some (registerValue s offset) })

/-- A RASTER byte write, which the host makes only while no conversion is in progress (70 R238). -/
def writeRaster (s : State) (a : Nat) (v : Byte) : Host.Outcome State Fault Refusal :=
  if converting s.status then .refused .hostDuty else .next { s with raster := Memory.write s.raster a v }

/-- A RAWIN byte write, under the same duty (70 R238). -/
def writeRawin (s : State) (a : Nat) (v : Byte) : Host.Outcome State Fault Refusal :=
  if converting s.status then .refused .hostDuty else .next { s with rawin := Memory.write s.rawin a v }

/-- An OSTREAM byte read: while DONE = 1, below OUTLEN (20 R66, 70 R240). -/
def readArtifact (s : State) (a : Nat) : Host.Outcome State Fault Refusal :=
  if s.status.done && decide (a < s.outlen.toNat) then
    match s.ostream[a]? with
    | some b => .next { s with hostData := some (b.setWidth 32) }
    | none => .refused .artifactRead
  else .refused .artifactRead

/-- The reset event (70 R230): every piece of the block takes its reset value. The parameters, the collaborator and the moves
still to come are not the block's (log 14). -/
def resetEvent (s : State) : State :=
  { State.reset with params := s.params, palq := s.palq, agenda := s.agenda, collabDefers := s.collabDefers }

end Sys2Proof.Machine
end

