-- ==== Sys2Proof/Machine/Sequencer.lean ====
section
/-! DEFINITION. How command words come to run: a word written to CMD (10 R31), the program queue of RUN (44 R182), the palette
hold (42 R128, 70 R239), and the turns of the agents (log 1). -/

namespace Sys2Proof.Machine

/-- The command word is, by its opcode alone (30 R87), INIT or RUN: the commands that run while ERR = 1 (60 R218, R220). -/
def leavesError (w : Word) : Bool := decide (opField w = 0x01) || decide (opField w = 0x02)

/-- A command word is executed, in the priority of 60 R220: nothing while ERR = 1 unless it is INIT or RUN; CMD_ILLEGAL when
it is no command; else the command. DEDUCED for a malformed INIT or RUN word while ERR = 1 (log 7). -/
def issue (w : Word) (s : State) : Host.Outcome State Fault Refusal :=
  if s.status.err && !leavesError w then .next s
  else
    match decode w with
    | .ok i => exec i s
    | .error _ => .next (raiseError .cmdIllegal s)

/-- BUSY <- 0 when PQ is empty and PALB does not wait (44 R182, 10 R32; log 17). -/
def dropBusy (s : State) : State :=
  if s.pq.isEmpty && !s.waiting then { s with status := { s.status with busy := false } } else s

/-- `dropBusy` on the state a command leaves. -/
def thenDropBusy : Host.Outcome State Fault Refusal → Host.Outcome State Fault Refusal
  | .next s => .next (dropBusy s)
  | .fault f => .fault f
  | .refused r => .refused r

/-- The sequencer's turn (44 R182): held while PALB waits, idle while BUSY = 0 (60 R227; DESIGN CHOICE log 19), else the first command of PQ is
removed and executed to its end. -/
def sequencerTurn (s : State) : Host.Outcome State Fault Refusal :=
  if s.waiting || !s.status.busy then .next s
  else
    match s.pq with
    | [] => .next (dropBusy s)
    | w :: rest => thenDropBusy (issue w { s with pq := rest })

/-- The collaborator's answer (70 R239): it ends the palette hold by carrying PALB out. An answer nobody waits for is ignored
(70 R230). -/
def answerTurn (s : State) : Host.Outcome State Fault Refusal :=
  if s.waiting then thenDropBusy (runCommand { s with waiting := false } palbBody) else .next s

/-- A register write: under the host's duties while BUSY = 1 (70 R238), a command word at CMD (10 R31). -/
def writeRegister (s : State) (offset bytes : Nat) (v : Word) : Host.Outcome State Fault Refusal :=
  registerAccess offset bytes
    (if s.status.busy && isRegister offset then .refused .hostDuty
    else if offset = 0x18 then issue v s
    else .next (storeRegister s offset v))

/-- One access of the host (60 R226). -/
def hostTurn (s : State) : HostAccess → Host.Outcome State Fault Refusal
  | .readReg offset bytes => readRegister s offset bytes
  | .writeReg offset bytes v => writeRegister s offset bytes v
  | .writeRaster a v => writeRaster s a v
  | .writeRawin a v => writeRawin s a v
  | .readOstream a => readArtifact s a

/-- One move. -/
def takeMove (m : Move) (s : State) : Host.Outcome State Fault Refusal :=
  match m with
  | .sequencer => sequencerTurn s
  | .host a => hostTurn s a
  | .collabDefer b => .next { s with collabDefers := b }
  | .collabAnswer => answerTurn s
  | .reset => .next (resetEvent s)

/-- The next move: the head of the agenda, or the sequencer's turn when no agent outside the block has one (log 1). -/
def nextMove (s : State) : Host.Outcome State Fault Refusal :=
  match s.agenda with
  | [] => sequencerTurn s
  | m :: rest => takeMove m { s with agenda := rest }

/-- The state in which the next move executes the command word `w`: a host write to CMD when the block is not busy; when RUN
is executing, the first word of PQ and the sequencer's turn (log 2). -/
def withCommandNext (s : State) (w : Word) : State :=
  if s.status.busy then { s with waiting := false, pq := w :: s.pq, agenda := .sequencer :: s.agenda }
  else { s with agenda := .host (.writeReg 0x18 4 w) :: s.agenda }

end Sys2Proof.Machine
end

