-- ==== Sys2Proof/Safety.lean ====
section
/-! DEFINITION. What the statements about the machine speak of: the invariants every step keeps, and what a command leaves
unchanged. -/

namespace Sys2Proof.Machine

/-! ### The shape of every state -/

/-- Every byte memory is in its canonical form. -/
def State.MemoryWf (s : State) : Prop :=
  s.raster.wf ∧ s.rawin.wf ∧ s.remap.wf ∧ s.obuf.b0.wf ∧ s.obuf.b1.wf ∧ s.obuf.b2.wf ∧ s.obuf.b3.wf

/-- The reserved bits of CFG and INSTAT read 0 (10 R25, R28). -/
def State.ReservedZero (s : State) : Prop := s.cfg &&& 0xFFFFF000 = 0 ∧ s.instat &&& 0xFFFFFFFC = 0

/-- A property of each of the three channels. -/
def AllChannels {α : Type} (p : α → Prop) (v : Rgb α) : Prop := p v.r ∧ p v.g ∧ p v.b

/-- The cursor of a pixel format (10 R36, 44 R178): inside the raster while the sub-conversion is not complete, at
(last pass, L.H, 0) when it is. -/
def State.CursorOk (s : State) : Prop :=
  if s.status.subDone s.cur.sub then
    s.cur.x = 0 ∧ s.cur.y = s.l.h ∧ s.cur.pass = decide (nPass s.l.fmt = 2)
  else s.cur.x.toNat < s.l.w.toNat ∧ s.cur.y.toNat < s.l.h.toNat ∧ (s.cur.pass = true → nPass s.l.fmt = 2)

/-- What holds while INIT_OK = 1: the cursor is legal, the sub-conversions before the current one are complete and those after
it are not (44 R175), ACTV and PALV are set only where QPIX and PALB are legal (10 R39, R40). -/
structure State.Converting (s : State) : Prop where
  subRange : s.cur.sub.toNat < s.l.nsub
  before : ∀ i : BitVec 2, i.toNat < s.cur.sub.toNat → s.status.subDone i = true
  after : ∀ i : BitVec 2, s.cur.sub.toNat < i.toNat → s.status.subDone i = false
  rawCursor : isRaw s.l.fmt = true → s.cur.x = 0 ∧ s.cur.y = 0 ∧ s.cur.pass = false
  pixelCursor : isRaw s.l.fmt = false → s.CursorOk
  actv : s.status.actv = true →
    s.status.subDone s.cur.sub = false ∧ (currentEncoder s).any isTrueColour = true
  palv : s.status.palv = true → isIndexed s.l.fmt = true

/-- The invariant of every reachable state. -/
structure State.Inv (s : State) : Prop where
  memory : s.MemoryWf
  reserved : s.ReservedZero
  /-- PAL has 256 entries (10 R43) -/
  palette : s.pal.length = 256
  /-- EARR[c] has L.W + 2 entries (10 R42) -/
  earr : AllChannels (fun e => e.length = s.l.w.toNat + 2) s.earr
  /-- NERR[c] lies in [-112, 112] (10 R41) -/
  nerr : AllChannels (fun n => -112 ≤ n ∧ n ≤ 112) s.nerr
  /-- PQ is empty whenever BUSY = 0 (10 R37), and PALB waits only while BUSY = 1 (42 R128) -/
  idle : s.status.busy = false → s.pq = [] ∧ s.waiting = false
  /-- the error state (60 R215) -/
  error : s.status.err = true → s.status.busy = false ∧ s.status.done = false ∧ s.status.initOk = false
  /-- ECODE is 0 exactly when ERR = 0 (10 R32) -/
  ecode : s.status.err = false ↔ s.status.ecode = .none
  /-- OSTREAM is empty and OUTLEN = 0 whenever DONE = 0 (10 R35) -/
  noArtifact : s.status.done = false → s.ostream = [] ∧ s.outlen = 0
  /-- OUTLEN is the number of bytes in OSTREAM (10 R35) -/
  outlen : s.outlen = outlenOf s.ostream.length
  /-- an artifact is at least 4 bytes long, so OUTLEN > 0 whenever DONE = 1 (10 R35) -/
  artifact : s.status.done = true → 4 ≤ s.ostream.length ∧ 0 < s.outlen.toNat
  /-- an artifact belongs to a conversion whose INIT succeeded (45 R195) -/
  doneInit : s.status.done = true → s.status.initOk = true
  /-- L.NSUB is NSUB(L) (44 R173) -/
  nsub : s.l.nsub = nSub s.l.fmt s.l.out
  /-- INIT latches only requests whose encoder exists (30 R92) -/
  encoder : s.l.out = true → isComposite s.l.fmt = true → 1 ≤ s.l.binsub.toNat ∧ s.l.binsub.toNat ≤ 4
  /-- INIT latches only binary requests with a format code and dimensions that fit the header (45 R192) -/
  header : s.l.out = true → (formatCode s.params s.l.fmt).isSome = true ∧ dimsFit s.l = true
  /-- the palette hold is inside a legal PALB (42 R127, R128) -/
  hold : s.waiting = true → s.status.initOk = true ∧ s.status.palv = false
  converting : s.status.initOk = true → s.Converting

/-! ### The ranges of the dither state (41 R118) -/

/-- How many pixels of the current row QPIX has quantized. -/
def quantizedInRow (s : State) : Nat := s.cur.x.toNat + s.status.actv.toNat

/-- How large entry i of an accumulator may be when q pixels of the row are quantized: three shares at the entry that is read
next, one at the entry written last, two elsewhere (41 R118). -/
def earrBound (q i : Nat) : Int := if i = q + 1 then 144 else if i = q then 80 else 128

/-- The read entries of one accumulator are within their bounds. -/
def EarrBounded (w q : Nat) (e : List Int) : Prop :=
  ∀ i, 1 ≤ i → i ≤ w → -(earrBound q i) ≤ e.getD i 0 ∧ e.getD i 0 ≤ earrBound q i

/-- While the Disperser may still act (41 R111, R115), every accumulator entry it will read is within its bound. -/
def State.DitherInv (s : State) : Prop :=
  s.status.initOk = true → s.l.dith = true → s.status.subDone s.cur.sub = false →
    (currentEncoder s).any isTrueColour = true →
    AllChannels (EarrBounded s.l.w.toNat (quantizedInRow s)) s.earr

/-! ### The output buffers (43 R162, 20 R73) -/

/-- A memory that holds exactly the bytes 0 to n - 1. -/
def Memory.Exact (m : Memory) (n : Nat) : Prop := m.map Prod.fst = List.range n

/-- How many bytes an encoder has written when the cursor of its pass is at (x, y) (20 R73). -/
def bytesBefore (l : Latched) (e : Encoder) (x y : Nat) : Nat :=
  let w := l.w.toNat
  let a := (effAlpha l).toNat
  match e with
  | .tc332 => (1 + a) * (w * y + x)
  | .tc565 | .tc565s => (2 + a) * (w * y + x)
  | .tc888 | .tc8888 => (3 + a) * (w * y + x)
  | .pl565 => 2 * (w * y + x)
  | .pla8 => 2 * w * l.h.toNat + (w * y + x)
  | .a1 => stride w 1 * y + ceilDiv x 8
  | .a2 => stride w 2 * y + ceilDiv x 4
  | .a4 => stride w 4 * y + ceilDiv x 2
  | .a8 => w * y + x
  | .i1 => 8 + (stride w 1 * y + ceilDiv x 8)
  | .i2 => 16 + (stride w 2 * y + ceilDiv x 4)
  | .i4 => 64 + (stride w 4 * y + ceilDiv x 2)
  | .i8 => 1024 + (w * y + x)
  | .raw => 0

/-- How many bytes the current output buffer holds. -/
def bytesWritten (s : State) : Nat :=
  match currentEncoder s with
  | none => 0
  | some .raw => if s.status.subDone s.cur.sub then s.l.rawlen.toNat else 0
  | some e =>
    if (indexBits e).isSome && !s.status.palv then 0 else bytesBefore s.l e s.cur.x.toNat s.cur.y.toNat

/-- While INIT_OK = 1 the output buffers hold exactly what the encoders have written: the complete ones ExpLen bytes, the
current one `bytesWritten`, the later ones none, and an indexed conversion has encoded no pixel before PALB (70 R237). -/
structure State.BuffersExact (s : State) : Prop where
  before : ∀ i : BitVec 2, i.toNat < s.cur.sub.toNat → ∃ n, expLen s.l i = some n ∧ (s.obuf.get i).Exact n
  current : (s.obuf.get s.cur.sub).Exact (bytesWritten s)
  after : ∀ i : BitVec 2, s.cur.sub.toNat < i.toNat → s.obuf.get i = []
  unbuilt : isIndexed s.l.fmt = true → s.status.palv = false → s.cur.x = 0 ∧ (s.cur.y = 0 ∨ noPixels s.l = true)

/-- `BuffersExact` while INIT_OK = 1. -/
def State.BufferInv (s : State) : Prop := s.status.initOk = true → s.BuffersExact

/-! ### Frames -/

/-- The inputs of a conversion, which no command writes: the host registers, RASTER, RAWIN, and the model's own inputs
(44 R173, R186). -/
structure SameInputs (s t : State) : Prop where
  cfg : t.cfg = s.cfg
  dims : t.dims = s.dims
  odims : t.odims = s.odims
  instat : t.instat = s.instat
  rawlen : t.rawlen = s.rawlen
  arg : t.arg = s.arg
  raster : t.raster = s.raster
  rawin : t.rawin = s.rawin
  params : t.params = s.params
  palq : t.palq = s.palq
  agenda : t.agenda = s.agenda
  collabDefers : t.collabDefers = s.collabDefers
  hostData : t.hostData = s.hostData

/-- The state a pixel encoder leaves alone whatever its format: everything but the output buffer of the current
sub-conversion, the cursor, ACTV and SUBDONE (43 R140). -/
structure SameButPixel (s t : State) : Prop where
  inputs : SameInputs s t
  res : t.res = s.res
  outlen : t.outlen = s.outlen
  l : t.l = s.l
  pq : t.pq = s.pq
  waiting : t.waiting = s.waiting
  act : t.act = s.act
  nerr : t.nerr = s.nerr
  earr : t.earr = s.earr
  pal : t.pal = s.pal
  remap : t.remap = s.remap
  ostream : t.ostream = s.ostream
  otherBuffers : ∀ i : BitVec 2, i ≠ s.cur.sub → t.obuf.get i = s.obuf.get i
  flags : { t.status with actv := s.status.actv, subdone := s.status.subdone } = s.status

/-- The bytes outside [a, a + n) of the current output buffer are as before. -/
def SameOutside (s t : State) (a n : Nat) : Prop :=
  ∀ p, ¬(a ≤ p ∧ p < a + n) →
    Memory.read (t.obuf.get s.cur.sub) p = Memory.read (s.obuf.get s.cur.sub) p

/-- Two states that only what an earlier conversion left may tell apart: RES, and PAL and REMAP, which agree where the
conversion reads them, that is once PALV = 1 and within the image (70 R232). -/
structure SameButLeftovers (s t : State) : Prop where
  rest : t = { s with res := t.res, pal := t.pal, remap := t.remap }
  pal : s.status.palv = true → t.pal = s.pal
  remap : s.status.palv = true → ∀ p, p < 4 * (s.l.w.toNat * s.l.h.toNat) → Memory.read t.remap p = Memory.read s.remap p

/-- The command entered the error state with this code (60 R215). -/
def EntersError (i : Instr) (s : State) (c : ErrCode) : Prop := exec i s = .next (raiseError c s)

end Sys2Proof.Machine
end

