-- ==== Sys2Proof/Certificates/Slice0/Obligations.lean ====
section
/-! DEFINITION. The statements about the model, each a proposition for the provers. -/

open Sys2Proof Sys2Proof.Machine

/-! ### Encoding (30_encoding.md) -/

/-- Every command, with every value of its operand fields, is read back from its word (30 R80 to R87). -/
def Obligations.DecodeReadsBackEncode : Prop :=
  ∀ i : Instr, decode (encode i) = .ok i ∧ decodeTableWord 32 (encode i).toNat = some i

/-- A word that decodes is the word of the command it decodes to: no bit of it is dropped (30 R81, R86). -/
def Obligations.EncodeReadsBackDecode : Prop := ∀ (w : Word) (i : Instr), decode w = .ok i → encode i = w

/-- The example words of 30 R97, of R95 and of 40 R106. -/
def Obligations.ExampleWordsDecode : Prop :=
  decode 0x00000001 = .ok .init ∧ decode 0x00000044 = .ok .encA1 ∧ decode 0x0000020B = .ok (.subc 2) ∧
  decode 0x005FFC06 = .ok (.trunc (-4) 5) ∧ decode 0x00508406 = .ok (.trunc 132 5)

/-- Exactly these words are commands: TRUNC with [31:24] = 0, SUBC with [31:10] = 0, and the 25 opcodes of format N with
[31:8] = 0 (30 R84 to R86). -/
def Obligations.LegalWordsAreTheMap : Prop :=
  ∀ w : Word, (∃ i, decode w = .ok i) ↔
    (w.toNat % 256 = 0x06 ∧ w.toNat < 2 ^ 24) ∨ (w.toNat % 256 = 0x0B ∧ w.toNat < 2 ^ 10) ∨
    ((1 ≤ w.toNat ∧ w.toNat ≤ 0x0A ∧ w.toNat ≠ 0x06) ∨ (0x40 ≤ w.toNat ∧ w.toNat ≤ 0x4F))

/-- A word that is no command, written to CMD while BUSY = 0 and ERR = 0, raises CMD_ILLEGAL and changes nothing that error
entry does not write (30 R85, R86; 60 R215). -/
def Obligations.IllegalWordRaises : Prop :=
  ∀ (s : State) (w : Word) (rest : List Move) (d : DecodeError),
    s.agenda = .host (.writeReg 0x18 4 w) :: rest → s.status.busy = false → s.status.err = false → decode w = .error d →
    step s = .next { s with
      agenda := rest, pq := [], waiting := false, ostream := [], outlen := 0
      status := { s.status with err := true, ecode := .cmdIllegal, busy := false, done := false, initOk := false } }

/-! ### Steps -/

/-- A step whose move is a host write of a command word to CMD while BUSY = 0 runs the decoded command (10 R31); the move is
taken off the agenda (log 1). So the step of the state `withFetchWord` makes runs the command in the state it was made from
(log 2). -/
def Obligations.HostWordRunsCommand : Prop :=
  ∀ (s : State) (w : Word) (i : Instr), s.status.busy = false → decode w = .ok i →
    (∀ rest : List Move, s.agenda = .host (.writeReg 0x18 4 w) :: rest → step s = exec i { s with agenda := rest }) ∧
    step (s.withFetchWord 32 w.toNat) = exec i s

/-- While BUSY = 1 the sequencer removes the first word of PQ and runs its command; BUSY falls when PQ is empty afterwards
and PALB does not wait (44 R182). -/
def Obligations.ProgramQueueRunsCommand : Prop :=
  ∀ (s : State) (w : Word) (queue : List Word) (i : Instr),
    s.agenda = [] → s.status.busy = true → s.waiting = false → s.pq = w :: queue → decode w = .ok i →
    step s =
      match exec i { s with pq := queue } with
      | .next t =>
        .next (if t.pq = [] ∧ t.waiting = false then { t with status := { t.status with busy := false } } else t)
      | .fault f => .fault f
      | .refused r => .refused r

/-- The block is idle while BUSY = 0 (60 R227), and held while PALB waits for the collaborator (42 R128); the reset event gives
every piece of the block its reset value in every state, and keeps the model's own fields (70 R230, log 14). -/
def Obligations.IdleHeldAndReset : Prop :=
  ∀ s : State,
    (s.agenda = [] → s.status.busy = false ∨ s.waiting = true → step s = .next s) ∧
    (∀ rest, s.agenda = .reset :: rest → step s = .next { State.reset with
      params := s.params, palq := s.palq, agenda := rest, collabDefers := s.collabDefers })

/-! ### Errors (60_exceptions.md) -/

/-- While ERR = 1 every command but INIT and RUN has no effect, and so has every word whose opcode is neither of theirs, legal
or illegal (60 R218). -/
def Obligations.ErrorStateIgnoresCommands : Prop :=
  (∀ (s : State) (i : Instr), s.status.err = true → i ≠ .init → i ≠ .run → exec i s = .next s) ∧
  (∀ (s : State) (w : Word) (rest : List Move),
    s.agenda = .host (.writeReg 0x18 4 w) :: rest → s.status.busy = false → s.status.err = true →
    w.toNat % 256 ≠ 1 → w.toNat % 256 ≠ 2 → step s = .next { s with agenda := rest })

/-- The only ways out of ERR = 1 are INIT, RUN and the reset event (60 R217). BUSY = 0 in the error state (60 R215, and
`StepKeepsInvariant`). -/
def Obligations.OnlyInitRunResetLeaveError : Prop :=
  ∀ s t : State, s.status.err = true → s.status.busy = false → s.waiting = false → step s = .next t → t.status.err = false →
    (∃ rest, s.agenda = .reset :: rest) ∨
    (∃ (w : Word) (rest : List Move), s.agenda = .host (.writeReg 0x18 4 w) :: rest ∧
      (decode w = .ok .init ∨ decode w = .ok .run))

/-- While INIT_OK = 0 every command but INIT, RUN and TRUNC raises CMD_ILLEGAL (60 R229). -/
def Obligations.NoInitNoCommand : Prop :=
  ∀ (s : State) (i : Instr), s.status.err = false → s.status.initOk = false →
    i ≠ .init → i ≠ .run → (∀ v b, i ≠ .trunc v b) → EntersError i s .cmdIllegal

/-- An encoder raises CMD_ILLEGAL when the sub-conversion is complete, when it is not the current encoder, when it is a
true-colour encoder and ACTV = 0, or an indexed one and PALV = 0 (43 R140, R161; 60 R229). -/
def Obligations.EncoderOutOfTurnRaises : Prop :=
  ∀ (s : State) (e : Encoder), s.status.err = false →
    (s.status.subDone s.cur.sub = true ∨ currentEncoder s ≠ some e ∨
      (e ∈ [.tc332, .tc565, .tc565s, .tc888, .tc8888, .pl565] ∧ s.status.actv = false) ∨
      (e ∈ [.i1, .i2, .i4, .i8] ∧ s.status.palv = false)) →
    EntersError (encoderInstr e) s .cmdIllegal

/-- QPIX raises CMD_ILLEGAL when the sub-conversion is complete, when the current encoder is no true-colour encoder, or when
ACTV = 1; PALB when the current encoder is not indexed or the palette is built; PALR when the current encoder is not indexed or
the palette is not built; SUBC when the request has one sub-conversion, when s is not the next one, or when the current one is
not complete (41 R113, 42 R127, R134, 44 R175). -/
def Obligations.OutOfTurnRaises : Prop :=
  ∀ s : State, s.status.err = false →
    (s.status.subDone s.cur.sub = true ∨
        (∀ e ∈ [Encoder.tc332, .tc565, .tc565s, .tc888, .tc8888, .pl565], currentEncoder s ≠ some e) ∨
        s.status.actv = true →
      EntersError .qpix s .cmdIllegal) ∧
    ((∀ e ∈ [Encoder.i1, .i2, .i4, .i8], currentEncoder s ≠ some e) ∨ s.status.palv = true → EntersError .palb s .cmdIllegal) ∧
    ((∀ e ∈ [Encoder.i1, .i2, .i4, .i8], currentEncoder s ≠ some e) ∨ s.status.palv = false → EntersError .palr s .cmdIllegal) ∧
    (∀ i : BitVec 2, s.l.nsub ≠ 4 ∨ i.toNat ≠ s.cur.sub.toNat + 1 ∨ s.status.subDone s.cur.sub = false →
      EntersError (.subc i) s .cmdIllegal)

/-- HDR raises CMD_ILLEGAL for a format with no code or dimensions above 2047; SERB and SERT raise it when a sub-conversion is
not complete or an indexed conversion has no palette, and the one of the other output kind raises it wherever the output
buffers are exact (45 R191, R194 to R196). -/
def Obligations.SerializersOutOfTurnRaise : Prop :=
  ∀ s : State, s.status.err = false →
    (formatCode s.params s.l.fmt = none ∨ 2047 < s.l.w.toNat ∨ 2047 < s.l.h.toNat → EntersError .hdr s .cmdIllegal) ∧
    ((∃ i : BitVec 2, i.toNat < nSub s.l.fmt s.l.out ∧ s.status.subDone i = false) ∨
        (isIndexed s.l.fmt = true ∧ s.status.palv = false) →
      EntersError .serb s .cmdIllegal ∧ EntersError .sert s .cmdIllegal) ∧
    (s.Inv → s.BufferInv →
      (s.l.out = false → EntersError .serb s .cmdIllegal) ∧ (s.l.out = true → EntersError .sert s .cmdIllegal))

/-- INIT raises the first of its errors that holds, in the order of 60 R219, before any per-image state is reset: nothing but
the previous outcome and what error entry writes changes (44 R170, R171; 60 R212). The fields of CFG and INSTAT are read by
their bit positions. -/
def Obligations.InitErrorsInOrder : Prop :=
  ∀ s : State,
    let fmt := s.cfg.toNat % 32
    let out := s.cfg.toNat / 64 % 2 = 1
    let binsub := s.cfg.toNat / 512 % 8
    let composite := 0x10 ≤ fmt ∧ fmt ≤ 0x12
    let fails := fun c : ErrCode => exec .init s = .next (raiseError c { s with
      ostream := [], outlen := 0
      status := { s.status with err := false, ecode := .none, done := false, warn := false, initOk := false } })
    let unknown := 0x13 ≤ fmt ∨ (out ∧ composite ∧ 5 ≤ binsub)
    let nosub := out ∧ composite ∧ binsub = 0
    let nocode := out ∧ (fmtOfCode (cfgFmt s.cfg)).bind (formatCode s.params) = none
    let load := s.instat.toNat % 2 = 1 ∧ ¬ (0x0C ≤ fmt ∧ fmt ≤ 0x0E)
    let w := if s.instat.toNat % 2 = 0 then s.dims.toNat % 65536
      else if s.instat.toNat / 2 % 2 = 1 then s.odims.toNat % 65536 else 0
    let h := if s.instat.toNat % 2 = 0 then s.dims.toNat / 65536
      else if s.instat.toNat / 2 % 2 = 1 then s.odims.toNat / 65536 else 0
    (unknown → fails .ceUnknownFormat) ∧
    (¬ unknown → nosub → fails .ceNoBinsub) ∧
    (¬ unknown → ¬ nosub → nocode → fails .ceNoFormatCode) ∧
    (¬ unknown → ¬ nosub → ¬ nocode → load → fails .loadError) ∧
    (¬ unknown → ¬ nosub → ¬ nocode → ¬ load → out → 2047 < w ∨ 2047 < h → fails .ceDimsRange)

/-- The conditions under which an encoder executes, but for ACTV and PALV (43 R140, R161). -/
def MayEncode (e : Encoder) (s : State) : Prop :=
  s.status.err = false ∧ s.status.initOk = true ∧ s.status.subDone s.cur.sub = false ∧ currentEncoder s = some e

/-- The j-th byte from the address a on is the first of them that nothing has written. -/
def FirstUnwritten (m : Memory) (a j : Nat) : Prop :=
  (∀ i < j, Memory.read m (a + i) ≠ none) ∧ Memory.read m (a + j) = none

/-- The command stops in the fault UNWRITTEN_INPUT at this byte (10 R47). -/
def FaultsAt (i : Instr) (s : State) (sp : Space) (a : Nat) : Prop := exec i s = .fault (.unwrittenInput sp a)

/-- The only fault is UNWRITTEN_INPUT, it names a byte of the input memories that nothing has written, and no command is ever
refused. Conversely, a legal command that reads a byte nothing has written stops in that fault at the first such byte: QPIX at
R, G or B of its pixel, the alpha encoders, ENC.PLA8 and the true-colour encoders that carry alpha at A, the indexed encoders at
the REMAP colour, ENC.RAW at RAWIN, PALB at the image (10 R47). Which bytes a command reads is log 6. -/
def Obligations.OnlyUnwrittenBytesFault : Prop :=
  (∀ (i : Instr) (s : State),
    (∀ r, exec i s ≠ .refused r) ∧
    (∀ f, exec i s = .fault f → ∃ (sp : Space) (a : Nat), f = .unwrittenInput sp a ∧
      Memory.read (match sp with | .raster => s.raster | .rawin => s.rawin | .remap => s.remap) a = none)) ∧
  ∀ (s : State) (a : Nat), a = 4 * (s.l.w.toNat * s.cur.y.toNat + s.cur.x.toNat) →
    (∀ e ∈ [Encoder.tc332, .tc565, .tc565s, .tc888, .tc8888, .pl565], MayEncode e s → s.status.actv = false →
      ∀ j < 3, FirstUnwritten s.raster a j → FaultsAt .qpix s .raster (a + j)) ∧
    (∀ e ∈ [Encoder.a1, .a2, .a4, .a8, .pla8], MayEncode e s → Memory.read s.raster (a + 3) = none →
      FaultsAt (encoderInstr e) s .raster (a + 3)) ∧
    (∀ e ∈ [Encoder.tc332, .tc565, .tc565s, .tc888, .tc8888], MayEncode e s → s.status.actv = true →
      ((s.l.fmt ∈ [Fmt.tc332, .tc565, .tc565s, .tc888] ∧ s.l.alpha = true) ∨ s.l.fmt = .trueColorAlpha) →
      Memory.read s.raster (a + 3) = none → FaultsAt (encoderInstr e) s .raster (a + 3)) ∧
    (∀ e ∈ [Encoder.i1, .i2, .i4, .i8], MayEncode e s → s.status.palv = true →
      ∀ j < 4, FirstUnwritten s.remap a j → FaultsAt (encoderInstr e) s .remap (a + j)) ∧
    (MayEncode .raw s → ∀ j < s.l.rawlen.toNat, FirstUnwritten s.rawin 0 j → FaultsAt .encRaw s .rawin j) ∧
    (∀ e ∈ [Encoder.i1, .i2, .i4, .i8], s.status.err = false → s.status.initOk = true → currentEncoder s = some e →
      s.status.palv = false → ∀ j < 4 * (s.l.w.toNat * s.l.h.toNat), FirstUnwritten s.raster 0 j →
      FaultsAt .palb s .raster j)

/-! ### The Frame Driver (44_frame_driver.md) -/

/-- INIT of a valid request: L is latched, the per-image state is reset, INIT_OK = 1; an image without pixels is complete at
once unless the format is raw (44 R170, R172, R173). -/
def Obligations.InitStartsConversion : Prop :=
  ∀ (s : State) (f : Fmt) (w h : BitVec 16) (warn : Bool),
    fmtOfCode (cfgFmt s.cfg) = some f →
    (cfgOut s.cfg = true → isComposite f = true → 1 ≤ (cfgBinsub s.cfg).toNat ∧ (cfgBinsub s.cfg).toNat ≤ 4) →
    (cfgOut s.cfg = true → formatCode s.params f ≠ none) →
    (s.instat.getLsbD 0 = true → isRaw f = true) →
    (w, h, warn) = (if s.instat.getLsbD 0 = false then (s.dims.extractLsb' 0 16, s.dims.extractLsb' 16 16, false)
      else if s.instat.getLsbD 1 = true then (s.odims.extractLsb' 0 16, s.odims.extractLsb' 16 16, false) else (0, 0, true)) →
    (cfgOut s.cfg = true → w.toNat ≤ 2047 ∧ h.toNat ≤ 2047) →
    exec .init s = .next
      (let empty := isRaw f = false ∧ w.toNat * h.toNat = 0
       let zeroes : List Int := List.replicate (w.toNat + 2) 0
       { s with
        l := { fmt := f, alpha := s.cfg.getLsbD 5, out := s.cfg.getLsbD 6, swap := s.cfg.getLsbD 7, dith := s.cfg.getLsbD 8,
               binsub := s.cfg.extractLsb' 9 3, w := w, h := h, rawlen := s.rawlen,
               nsub := if isComposite f = true ∧ s.cfg.getLsbD 6 = false then 4 else 1 }
        status := { s.status with
          err := false, ecode := .none, done := false, warn := warn, palv := false, actv := false,
          subdone := if empty then 1 else 0, initOk := true }
        ostream := [], outlen := 0, obuf := ⟨[], [], [], []⟩
        act := ⟨0, 0, 0⟩, nerr := ⟨0, 0, 0⟩, earr := ⟨zeroes, zeroes, zeroes⟩
        cur := if empty then { sub := 0, pass := decide (f = .planar565a8), y := h, x := 0 }
          else { sub := 0, pass := false, y := 0, x := 0 } })

/-- RUN is INIT followed, when INIT raises nothing, by BUSY <- 1 and PQ <- Prog(L); on a valid request it completes so
(44 R181). -/
def Obligations.RunIsInitThenProgram : Prop :=
  (∀ s t : State, exec .init s = .next t →
    (t.status.err = false →
      exec .run s = .next { t with status := { t.status with busy := true }, pq := (prog t.l).map encode }) ∧
    (t.status.err = true → exec .run s = .next t)) ∧
  ∀ (s : State) (f : Fmt),
    fmtOfCode (cfgFmt s.cfg) = some f →
    (cfgOut s.cfg = true → isComposite f = true → 1 ≤ (cfgBinsub s.cfg).toNat ∧ (cfgBinsub s.cfg).toNat ≤ 4) →
    (cfgOut s.cfg = true → formatCode s.params f ≠ none) →
    s.instat.getLsbD 0 = false →
    (cfgOut s.cfg = true → (dimsW s.dims).toNat ≤ 2047 ∧ (dimsH s.dims).toNat ≤ 2047) →
    ∃ t, exec .init s = .next t ∧ t.status.initOk = true ∧ t.l.fmt = f ∧
      exec .run s = .next { t with status := { t.status with busy := true }, pq := (prog t.l).map encode }

/-- SUBC of the next sub-conversion, the current one being complete: its output buffer is emptied, the dither state, ACT, ACTV
and PALV are cleared, the cursor is at its start, or at its end when the image has no pixels (44 R175). -/
def Obligations.SubcStartsNext : Prop :=
  ∀ (s : State) (i : BitVec 2), s.status.err = false → s.status.initOk = true → s.l.nsub = 4 →
    i.toNat = s.cur.sub.toNat + 1 → s.status.subDone s.cur.sub = true →
    exec (.subc i) s = .next
      (let empty := s.l.w.toNat * s.l.h.toNat = 0
       let zeroes : List Int := List.replicate (s.l.w.toNat + 2) 0
       { s with
        obuf := s.obuf.set i []
        status := { s.status with
          palv := false, actv := false
          subdone := if empty then s.status.subdone ||| (1#4 <<< i.toNat) else s.status.subdone }
        act := ⟨0, 0, 0⟩, nerr := ⟨0, 0, 0⟩, earr := ⟨zeroes, zeroes, zeroes⟩
        cur := { sub := i, pass := false, y := if empty then s.l.h else 0, x := 0 } })

/-- The commands of a true-colour pass: for every row ROWS, then QPIX and the encoder for every pixel; none for an image without
pixels (44 R180). -/
def colourPass (l : Latched) (e : Encoder) : List Instr :=
  if l.w.toNat * l.h.toNat = 0 then []
  else (List.replicate l.h.toNat (.rows :: (List.replicate l.w.toNat [.qpix, encoderInstr e]).flatten)).flatten

/-- The commands of every other pass: the encoder for every pixel (44 R180). -/
def plainPass (l : Latched) (e : Encoder) : List Instr := List.replicate (l.w.toNat * l.h.toNat) (encoderInstr e)

/-- Prog(L) of every request INIT latches, by its format: one colour pass, one plain pass, PALB and one plain pass, the raw copy,
the two passes of the planar format, the sub-format of a binary composite request, or the four sub-conversions of a text one with
SUBC between them; then the serializer of the output kind (44 R180, R174; the encoders are those of 30 R92). -/
def Obligations.BitmapProgram : Prop :=
  ∀ l : Latched,
    let tail := if l.out then [Instr.hdr, .serb] else [.sert]
    (∀ e, (l.fmt, e) ∈ [(Fmt.tc332, Encoder.tc332), (.tc565, .tc565), (.tc565s, .tc565s), (.tc888, .tc888)] →
      prog l = colourPass l e ++ tail) ∧
    (∀ e, (l.fmt, e) ∈ [(Fmt.a1, Encoder.a1), (.a2, .a2), (.a4, .a4), (.a8, .a8)] → prog l = plainPass l e ++ tail) ∧
    (∀ e, (l.fmt, e) ∈ [(Fmt.i1, Encoder.i1), (.i2, .i2), (.i4, .i4), (.i8, .i8)] →
      prog l = [.palb] ++ plainPass l e ++ tail) ∧
    (l.fmt ∈ [Fmt.raw, .rawAlpha, .rawChroma] → prog l = [.encRaw] ++ tail) ∧
    (l.fmt = .planar565a8 → prog l = colourPass l .pl565 ++ plainPass l .pla8 ++ tail) ∧
    (l.fmt ∈ [Fmt.trueColor, .trueColorAlpha, .trueColorChroma] →
      (l.out = true →
        ∀ e, (l.binsub.toNat, e) ∈ [(1, Encoder.tc332), (2, .tc565), (3, .tc565s), (4, .tc8888)] →
          prog l = colourPass l e ++ [.hdr, .serb]) ∧
      (l.out = false →
        prog l = colourPass l .tc332 ++ [.subc 1] ++ colourPass l .tc565 ++ [.subc 2] ++ colourPass l .tc565s ++ [.subc 3] ++
          colourPass l .tc888 ++ [.sert]))

/-- Nothing an earlier conversion wrote reaches the next one: two states with the same inputs give the same INIT, but for RES,
PAL and REMAP, which INIT keeps (70 R232), and the BUSY state of a RUN (44 R184). -/
def Obligations.InitForgetsPrevious : Prop :=
  ∀ s s' t t' : State, s'.cfg = s.cfg → s'.dims = s.dims → s'.odims = s.odims → s'.instat = s.instat →
    s'.rawlen = s.rawlen → s'.params = s.params →
    exec .init s = .next t → exec .init s' = .next t' → t.status.err = false →
    t'.status.err = false ∧ t'.l = t.l ∧ t'.cur = t.cur ∧ t'.act = t.act ∧ t'.nerr = t.nerr ∧ t'.earr = t.earr ∧
      t'.obuf = t.obuf ∧ t'.ostream = t.ostream ∧ t'.outlen = t.outlen ∧
      { t'.status with busy := false } = { t.status with busy := false }

/-- No command lets what an earlier conversion left in RES, PAL or REMAP reach anything else: run in two states that only
those leftovers may tell apart, it has the same outcome but for the leftovers (44 R184, 70 R232). -/
def Obligations.LeftoversStayHidden : Prop :=
  ∀ (i : Instr) (s t : State), s.Inv → SameButLeftovers s t →
    match exec i s with
    | .next s' => ∃ t', exec i t = .next t' ∧ SameButLeftovers s' t'
    | .fault f => exec i t = .fault f
    | .refused r => exec i t = .refused r

/-- What no command writes and what only one or few write: the inputs of the conversion (44 R186), L only INIT and RUN
(10 R33), RES only TRUNC, PALR and HDR (10 R34), PAL and REMAP only PALB (42 R126), the program queue only RUN and error
entry, OSTREAM only the serializers, INIT, RUN and error entry (20 R66). -/
def Obligations.WhoWritesWhat : Prop :=
  ∀ (i : Instr) (s t : State), exec i s = .next t →
    SameInputs s t ∧
    (i ≠ .init → i ≠ .run → t.l = s.l) ∧
    ((∀ v b, i ≠ .trunc v b) → i ≠ .palr → i ≠ .hdr → t.res = s.res) ∧
    (i ≠ .palb → t.pal = s.pal ∧ t.remap = s.remap) ∧
    (i ≠ .run → t.pq = s.pq ∨ t.pq = []) ∧
    (i ≠ .serb → i ≠ .sert → t.ostream = s.ostream ∨ t.ostream = [])

/-! ### The Quantizer (40_quantizer.md) -/

/-- TRUNC with bits in 1 to 8 writes RES and nothing else: q * step clamped to 0..qmax, where step is 2^(8 - bits) and q is the
integer nearest value/step, a tie going to the lower integer under HALF_DOWN and to the higher under HALF_UP (40 R100 to
R106); with bits 0 or 9 to 15 it raises CMD_ILLEGAL. -/
def Obligations.TruncRoundsAndClamps : Prop :=
  ∀ (s : State) (value : BitVec 12) (bits : BitVec 4), s.status.err = false →
    (bits.toNat = 0 ∨ 9 ≤ bits.toNat → EntersError (.trunc value bits) s .cmdIllegal) ∧
    (1 ≤ bits.toNat → bits.toNat ≤ 8 → ∃ q : Int,
      exec (.trunc value bits) s = .next { s with
        res := BitVec.ofInt 32
          (min ((2 ^ bits.toNat - 1) * 2 ^ (8 - bits.toNat)) (max 0 (q * 2 ^ (8 - bits.toNat)))) } ∧
      (tieRule s.params .truncCommand = .halfDown →
        -(2 ^ (8 - bits.toNat)) < 2 * (value.toInt - q * 2 ^ (8 - bits.toNat)) ∧
          2 * (value.toInt - q * 2 ^ (8 - bits.toNat)) ≤ 2 ^ (8 - bits.toNat)) ∧
      (tieRule s.params .truncCommand = .halfUp →
        -(2 ^ (8 - bits.toNat)) ≤ 2 * (value.toInt - q * 2 ^ (8 - bits.toNat)) ∧
          2 * (value.toInt - q * 2 ^ (8 - bits.toNat)) < 2 ^ (8 - bits.toNat)))

/-- The properties of trunc that 40 R108 lists, for both tie rules: monotone; a multiple of step in 0..qmax; idempotent; within
half a step on 0..qmax; clamp at 8 bits. -/
def Obligations.QuantizerProperties : Prop :=
  ∀ (r : TieRule) (b : Nat), 1 ≤ b → b ≤ 8 → ∀ v : Int,
    (∀ v', v ≤ v' → truncTo r v b ≤ truncTo r v' b) ∧
    (2 ^ (8 - b) ∣ truncTo r v b ∧ 0 ≤ truncTo r v b ∧ truncTo r v b ≤ (2 ^ b - 1) * 2 ^ (8 - b)) ∧
    truncTo r (truncTo r v b) b = truncTo r v b ∧
    (0 ≤ v → v ≤ (2 ^ b - 1) * 2 ^ (8 - b) → 2 * |v - truncTo r v b| ≤ 2 ^ (8 - b)) ∧
    truncTo r v 8 = min 255 (max 0 v)

/-! ### The Disperser (41_disperser.md) -/

/-- ROWS clears the carried error of the three channels and nothing else, at any cursor position; while INIT_OK = 0 it raises
CMD_ILLEGAL (41 R112). -/
def Obligations.RowsClearsCarriedError : Prop :=
  ∀ s : State, s.status.err = false →
    (s.status.initOk = true → exec .rows s = .next { s with nerr := ⟨0, 0, 0⟩ }) ∧
    (s.status.initOk = false → EntersError .rows s .cmdIllegal)

/-- The colour sample of the pixel at the cursor is readable: R, G and B stand in RASTER from 4 * (L.W * y + x) on (20 R61). -/
def ColourAtCursor (s : State) (smp : Rgb Byte) : Prop :=
  let a := 4 * (s.l.w.toNat * s.cur.y.toNat + s.cur.x.toNat)
  Memory.read s.raster a = some smp.r ∧ Memory.read s.raster (a + 1) = some smp.g ∧ Memory.read s.raster (a + 2) = some smp.b

/-- QPIX without dithering: each channel of ACT is the Quantizer of the sample at the depth of the encoder, ACTV is set, and
NERR, EARR and everything else keep their values (41 R113, R115). -/
def Obligations.QpixWithoutDither : Prop :=
  ∀ (s : State) (e : Encoder) (d : Rgb Nat) (smp : Rgb Byte), s.status.err = false → s.status.initOk = true →
    s.status.subDone s.cur.sub = false → s.status.actv = false → currentEncoder s = some e → depths e = some d →
    s.l.dith = false → ColourAtCursor s smp →
    exec .qpix s = .next { s with
      act := ⟨BitVec.ofInt 8 (truncTo (tieRule s.params (.encoder e)) smp.r.toNat d.r),
              BitVec.ofInt 8 (truncTo (tieRule s.params (.encoder e)) smp.g.toNat d.g),
              BitVec.ofInt 8 (truncTo (tieRule s.params (.encoder e)) smp.b.toNat d.b)⟩
      status := { s.status with actv := true } }

/-- One channel of QPIX with dithering, at column x with sample smp and depth bits (41 R114): the working value is sample +
carried error + accumulator[x+1]; the residual is the sample minus the quantized value; the carried error becomes 7/16 of it;
accumulator[x+1] is cleared, and 3/16, 5/16 and 1/16 of the residual are added at x, x+1 and x+2. -/
def ChannelDispersed (t : TieRule) (r : ShareRule) (x : Nat) (smp : Byte) (bits : Nat) (nerr nerr' : Int)
    (earr earr' : List Int) (q : Byte) : Prop :=
  let value := truncTo t (smp.toNat + nerr + earr.getD (x + 1) 0) bits
  let res := (smp.toNat : Int) - value
  q = BitVec.ofInt 8 value ∧ nerr' = rnd16 r (7 * res) ∧ earr'.length = earr.length ∧
  ∀ j < earr.length, earr'.getD j 0 =
    (if j = x + 1 then 0 else earr.getD j 0) + (if j = x then rnd16 r (3 * res) else 0) +
      (if j = x + 1 then rnd16 r (5 * res) else 0) + (if j = x + 2 then rnd16 r res else 0)

/-- QPIX with dithering: the three channels are dispersed, each by its own sample, carried error and accumulator, ACTV is set,
and everything else keeps its value (41 R113, R114, R116). -/
def Obligations.QpixWithDither : Prop :=
  ∀ (s : State) (e : Encoder) (d : Rgb Nat) (smp : Rgb Byte), s.status.err = false → s.status.initOk = true →
    s.status.subDone s.cur.sub = false → s.status.actv = false → currentEncoder s = some e → depths e = some d →
    s.l.dith = true → ColourAtCursor s smp →
    ∃ t, exec .qpix s = .next t ∧
      t = { s with act := t.act, nerr := t.nerr, earr := t.earr, status := { s.status with actv := true } } ∧
      ChannelDispersed (tieRule s.params (.encoder e)) s.params.dround s.cur.x.toNat smp.r d.r s.nerr.r t.nerr.r
        s.earr.r t.earr.r t.act.r ∧
      ChannelDispersed (tieRule s.params (.encoder e)) s.params.dround s.cur.x.toNat smp.g d.g s.nerr.g t.nerr.g
        s.earr.g t.earr.g t.act.g ∧
      ChannelDispersed (tieRule s.params (.encoder e)) s.params.dround s.cur.x.toNat smp.b d.b s.nerr.b t.nerr.b
        s.earr.b t.earr.b t.act.b

/-- The four shares of a residual sum to it within 2, under both tie rules (41 R120). -/
def Obligations.SharesSumToResidual : Prop :=
  ∀ (k : ShareRule) (r : Int), |rnd16 k (7 * r) + rnd16 k (3 * r) + rnd16 k (5 * r) + rnd16 k (1 * r) - r| ≤ 2

/-- Every step keeps the bounds of the accumulator entries that QPIX will still read (41 R118). -/
def Obligations.StepKeepsDitherBounds : Prop :=
  ∀ s t : State, s.Inv → s.DitherInv → step s = .next t → t.DitherInv

/-- The ranges of 41 R118: a residual is in -255..255; where QPIX is legal and L.DITH = 1, the accumulator entry it reads is in
-144..144, the carried error in -112..112 and the working value in -256..511. -/
def Obligations.WorkingValueInRange : Prop :=
  (∀ (r : TieRule) (smp : Byte) (v : Int) (b : Nat), 1 ≤ b → b ≤ 8 →
    -255 ≤ (smp.toNat : Int) - truncTo r v b ∧ (smp.toNat : Int) - truncTo r v b ≤ 255) ∧
  ∀ (s : State) (smp : Rgb Byte), s.Inv → s.DitherInv → s.status.initOk = true → s.l.dith = true →
    s.status.subDone s.cur.sub = false → s.status.actv = false → (currentEncoder s).any isTrueColour = true →
    AllChannels (fun e : List Int => -144 ≤ e.getD (s.cur.x.toNat + 1) 0 ∧ e.getD (s.cur.x.toNat + 1) 0 ≤ 144) s.earr ∧
    AllChannels (fun n : Int => -112 ≤ n ∧ n ≤ 112) s.nerr ∧
    (-256 ≤ workingValue smp.r s.nerr.r s.earr.r s.cur.x.toNat ∧ workingValue smp.r s.nerr.r s.earr.r s.cur.x.toNat ≤ 511) ∧
    (-256 ≤ workingValue smp.g s.nerr.g s.earr.g s.cur.x.toNat ∧ workingValue smp.g s.nerr.g s.earr.g s.cur.x.toNat ≤ 511) ∧
    (-256 ≤ workingValue smp.b s.nerr.b s.earr.b s.cur.x.toNat ∧ workingValue smp.b s.nerr.b s.earr.b s.cur.x.toNat ≤ 511)

/-! ### The Palette Adapter (42_palette.md) -/

/-- The image, a list of rows, is what RASTER holds: L.H rows of L.W pixels, each pixel R, G, B, A at 4 * (L.W * y + x)
(20 R61, 42 R127). -/
def ImageInRaster (s : State) (image : List (List Color)) : Prop :=
  image.length = s.l.h.toNat ∧ (∀ row ∈ image, row.length = s.l.w.toNat) ∧
  ∀ y < s.l.h.toNat, ∀ x < s.l.w.toNat,
    let c := (image.getD y []).getD x { r := 0, g := 0, b := 0, a := 0 }
    Memory.read s.raster (4 * (s.l.w.toNat * y + x)) = some c.r ∧
    Memory.read s.raster (4 * (s.l.w.toNat * y + x) + 1) = some c.g ∧
    Memory.read s.raster (4 * (s.l.w.toNat * y + x) + 2) = some c.b ∧
    Memory.read s.raster (4 * (s.l.w.toNat * y + x) + 3) = some c.a

/-- PALB with an answer that keeps the contract: PAL holds the list and then zeroes, the palette region holds each entry as
B, G, R, A, REMAP holds each remapped colour as R, G, B, A, PALV is set, and nothing else changes: no other byte of REMAP or of
the output buffer, no other buffer, no other register (42 R126 to R131). -/
def Obligations.PalbBuildsPalette : Prop :=
  ∀ (s : State) (e : Encoder) (k : Nat) (image : List (List Color)) (ans : PalAnswer), s.status.err = false → s.status.initOk = true →
    currentEncoder s = some e → indexBits e = some k → s.status.palv = false → s.collabDefers = false →
    ImageInRaster s image → ans = collaborator s { width := s.l.w.toNat, image := image, size := 2 ^ k } →
    ans.colors.length ≤ 2 ^ k →
    ans.remap.length = s.l.h.toNat →
    (∀ row ∈ ans.remap, row.length = s.l.w.toNat) →
    ∃ t, exec .palb s = .next t ∧
      t = { s with pal := t.pal, remap := t.remap, obuf := t.obuf, status := { s.status with palv := true } } ∧
      t.pal.length = 256 ∧
      (∀ i < 256, t.pal[i]? = some
        (ans.colors.getD i { r := 0, g := 0, b := 0, a := 0 })) ∧
      (∀ i < 2 ^ k, ∀ c, t.pal[i]? = some c →
        Memory.read (t.obuf.get s.cur.sub) (4 * i) = some c.b ∧ Memory.read (t.obuf.get s.cur.sub) (4 * i + 1) = some c.g ∧
        Memory.read (t.obuf.get s.cur.sub) (4 * i + 2) = some c.r ∧ Memory.read (t.obuf.get s.cur.sub) (4 * i + 3) = some c.a) ∧
      (∀ p, 4 * 2 ^ k ≤ p → Memory.read (t.obuf.get s.cur.sub) p = Memory.read (s.obuf.get s.cur.sub) p) ∧
      (∀ i, i ≠ s.cur.sub → t.obuf.get i = s.obuf.get i) ∧
      (∀ x y row c, ans.remap[y]? = some row → row[x]? = some c →
        Memory.read t.remap (4 * (s.l.w.toNat * y + x)) = some c.r ∧
        Memory.read t.remap (4 * (s.l.w.toNat * y + x) + 1) = some c.g ∧
        Memory.read t.remap (4 * (s.l.w.toNat * y + x) + 2) = some c.b ∧
        Memory.read t.remap (4 * (s.l.w.toNat * y + x) + 3) = some c.a) ∧
      (∀ p, 4 * (s.l.w.toNat * s.l.h.toNat) ≤ p → Memory.read t.remap p = Memory.read s.remap p)

/-- PALB with an answer that breaks the contract raises IE_COLLABORATOR; REMAP, PAL, the palette region and PALV keep their
values (42 R132). -/
def Obligations.PalbRejectsBadAnswer : Prop :=
  ∀ (s : State) (e : Encoder) (k : Nat) (image : List (List Color)) (ans : PalAnswer), s.status.err = false → s.status.initOk = true →
    currentEncoder s = some e → indexBits e = some k → s.status.palv = false → s.collabDefers = false →
    ImageInRaster s image → ans = collaborator s { width := s.l.w.toNat, image := image, size := 2 ^ k } →
    (2 ^ k < ans.colors.length ∨
      ans.remap.length ≠ s.l.h.toNat ∨
      ∃ row ∈ ans.remap, row.length ≠ s.l.w.toNat) →
    EntersError .palb s .ieCollaborator ∧
      (raiseError .ieCollaborator s).remap = s.remap ∧ (raiseError .ieCollaborator s).pal = s.pal ∧
      (raiseError .ieCollaborator s).obuf = s.obuf ∧ (raiseError .ieCollaborator s).status.palv = s.status.palv

/-- The palette hold. Where the collaborator's answer makes PALB complete or raise IE_COLLABORATOR, a PALB whose collaborator
defers its answer changes nothing but BUSY and the hold, whether the host wrote it to CMD or a RUN issues it; the sequencer's
turns leave the hold alone; the answer then leaves exactly what PALB leaves at once, BUSY staying 1 where commands of the RUN
remain and falling where none do (42 R128, R132, 44 R182, 70 R239; the model's reading of both forms is log 5, and that BUSY
falls in the step of the answer is log 17). -/
def Obligations.HeldPalbIsPalbLater : Prop :=
  ∀ s t : State, s.waiting = false → s.agenda = [] → s.collabDefers = true → s.status.err = false → s.status.palv = false →
    exec .palb { s with collabDefers := false } = .next t → (t.status.palv = true ∨ t.status.ecode = .ieCollaborator) →
    let held := { s with waiting := true, status := { s.status with busy := true } }
    exec .palb s = .next held ∧
    (∀ w, decode w = .ok .palb →
      (s.status.busy = false → step { s with agenda := [.host (.writeReg 0x18 4 w)] } = .next held) ∧
      (s.status.busy = true → step { s with pq := w :: s.pq } = .next held)) ∧
    step held = .next held ∧
    step { held with agenda := [.collabAnswer] } =
      .next { t with collabDefers := true, status := { t.status with busy := decide (t.pq ≠ []) } }

/-- PALR writes the lowest index of a palette entry equal to the ARG colour, all four channels compared, among the P entries of
the conversion; with no such entry it raises IE_PALETTE_MISS (42 R133, R134). -/
def Obligations.PalrFindsLowestIndex : Prop :=
  ∀ (s : State) (e : Encoder) (k : Nat) (c : Color), s.status.err = false → s.status.initOk = true →
    currentEncoder s = some e → indexBits e = some k → s.status.palv = true → s.pal.length = 256 →
    c = { r := s.arg.extractLsb' 0 8, g := s.arg.extractLsb' 8 8, b := s.arg.extractLsb' 16 8, a := s.arg.extractLsb' 24 8 } →
    (∀ i, i < 2 ^ k → s.pal[i]? = some c → (∀ j < i, s.pal[j]? ≠ some c) →
      exec .palr s = .next { s with res := BitVec.ofNat 32 i }) ∧
    ((∀ i < 2 ^ k, s.pal[i]? ≠ some c) → EntersError .palr s .iePaletteMiss)

/-! ### The Pixel Encoder (43_pixel_encoder.md) -/

/-- The pixel encoder of e completes and appends these bytes: they stand in the output buffer of the current sub-conversion from
its old length on, every other byte reads as before, and the rest of the state is that of `SameButPixel`. -/
def AppendsPixel (e : Encoder) (s : State) (bytes : List Byte) : Prop :=
  ∃ t, exec (encoderInstr e) s = .next t ∧ SameButPixel s t ∧ t.status.actv = (if isTrueColour e then false else s.status.actv) ∧
    SameOutside s t (Memory.len (s.obuf.get s.cur.sub)) bytes.length ∧
    ∀ j < bytes.length, Memory.read (t.obuf.get s.cur.sub) (Memory.len (s.obuf.get s.cur.sub) + j) = bytes[j]?

/-- The trailing alpha bytes: none, or the alpha sample of the pixel at the cursor, which must be readable (43 R147). -/
def AlphaBytes (s : State) (alpha : List Byte) : Prop :=
  (effAlpha s.l = false ∧ alpha = []) ∨
  (effAlpha s.l = true ∧ ∃ a, alpha = [a] ∧
    Memory.read s.raster (4 * (s.l.w.toNat * s.cur.y.toNat + s.cur.x.toNat) + 3) = some a)

/-- ENC.TC332 appends ACT.R | ACT.G >> 3 | ACT.B >> 6, then the alpha byte if the request carries alpha (43 R141, R147). That
it completes with the alpha sample unwritten where it carries none is the model's reading, DEDUCED (log 6). -/
def Obligations.Tc332AppendsPixel : Prop :=
  ∀ (s : State) (alpha : List Byte), MayEncode .tc332 s → s.status.actv = true → AlphaBytes s alpha →
    AppendsPixel .tc332 s ((s.act.r ||| (s.act.g >>> 3) ||| (s.act.b >>> 6)) :: alpha)

/-- The 5-6-5 encoders append the two bytes of the colour word, whose number is (R/8) * 2048 + (G/4) * 32 + B/8: TC565 and PL565
low byte first unless EffSwap = 1, TC565S high byte first; TC565 and TC565S then append the alpha byte if the request carries
alpha, PL565 never does (43 R142 to R144, R147, R148). That they complete with the alpha sample unwritten where they append none
is the model's reading, DEDUCED (log 6). -/
def Obligations.Encoders565AppendPixel : Prop :=
  ∀ (s : State) (alpha : List Byte) (w : Nat),
    w = s.act.r.toNat / 8 * 2048 + s.act.g.toNat / 4 * 32 + s.act.b.toNat / 8 → s.status.actv = true →
    (MayEncode .tc565 s → AlphaBytes s alpha →
      AppendsPixel .tc565 s ((if effSwap s.l then [BitVec.ofNat 8 (w / 256), BitVec.ofNat 8 w]
        else [BitVec.ofNat 8 w, BitVec.ofNat 8 (w / 256)]) ++ alpha)) ∧
    (MayEncode .tc565s s → AlphaBytes s alpha →
      AppendsPixel .tc565s s ([BitVec.ofNat 8 (w / 256), BitVec.ofNat 8 w] ++ alpha)) ∧
    (MayEncode .pl565 s →
      AppendsPixel .pl565 s (if effSwap s.l then [BitVec.ofNat 8 (w / 256), BitVec.ofNat 8 w]
        else [BitVec.ofNat 8 w, BitVec.ofNat 8 (w / 256)]))

/-- ENC.TC888 appends B, G, R and the alpha byte if the request carries alpha; ENC.TC8888 the same, reversed whole when
EffSwap = 1 (43 R145, R146). That they complete with the alpha sample unwritten where the request carries no alpha is the model's
reading, DEDUCED (log 6). -/
def Obligations.Encoders888AppendPixel : Prop :=
  ∀ (s : State) (alpha : List Byte), s.status.actv = true → AlphaBytes s alpha →
    (MayEncode .tc888 s → AppendsPixel .tc888 s ([s.act.b, s.act.g, s.act.r] ++ alpha)) ∧
    (MayEncode .tc8888 s →
      AppendsPixel .tc8888 s
        (if effSwap s.l then alpha ++ [s.act.r, s.act.g, s.act.b] else [s.act.b, s.act.g, s.act.r] ++ alpha))

/-- ENC.PLA8 appends the alpha sample, unchanged (43 R149). That it completes with the R, G and B samples unwritten is the model's
reading, DEDUCED (log 6). -/
def Obligations.Pla8AppendsAlpha : Prop :=
  ∀ (s : State) (a : Byte), MayEncode .pla8 s →
    Memory.read s.raster (4 * (s.l.w.toNat * s.cur.y.toNat + s.cur.x.toNat) + 3) = some a → AppendsPixel .pla8 s [a]

/-- The pixel encoder of e completes and leaves the byte b at the address p of the current output buffer; every other byte reads
as before, and the rest of the state is that of `SameButPixel`. -/
def StoresByte (e : Encoder) (s : State) (p : Nat) (b : Byte) : Prop :=
  ∃ t, exec (encoderInstr e) s = .next t ∧ SameButPixel s t ∧ t.status.actv = s.status.actv ∧ SameOutside s t p 1 ∧
    Memory.read (t.obuf.get s.cur.sub) p = some b

/-- The byte that was at an address of the current output buffer, an unwritten one counting as 0 (20 R65). -/
def byteThere (s : State) (p : Nat) : Byte := (Memory.read (s.obuf.get s.cur.sub) p).getD 0

/-- The alpha encoders: A1, A2 and A4 OR their field, most significant first, into the byte of the pixel, rows starting at byte
boundaries; A8 stores the sample. The field is 1 when alpha > 0x80 at 1 bit, alpha / 64 at 2 and alpha / 16 at 4 (43 R151 to
R155, 20 R70, R71). That they complete with the R, G and B samples unwritten is the model's reading, DEDUCED (log 6). -/
def Obligations.AlphaEncodersPlaceField : Prop :=
  ∀ (s : State) (a : Byte) (x y w : Nat), x = s.cur.x.toNat → y = s.cur.y.toNat → w = s.l.w.toNat →
    Memory.read s.raster (4 * (w * y + x) + 3) = some a →
    (MayEncode .a1 s → StoresByte .a1 s ((w + 7) / 8 * y + x / 8)
      (byteThere s ((w + 7) / 8 * y + x / 8) ||| BitVec.ofNat 8 ((if a.toNat > 0x80 then 1 else 0) * 2 ^ (7 - x % 8)))) ∧
    (MayEncode .a2 s → StoresByte .a2 s ((w + 3) / 4 * y + x / 4)
      (byteThere s ((w + 3) / 4 * y + x / 4) ||| BitVec.ofNat 8 (a.toNat / 64 * 2 ^ (6 - 2 * (x % 4))))) ∧
    (MayEncode .a4 s → StoresByte .a4 s ((w + 1) / 2 * y + x / 2)
      (byteThere s ((w + 1) / 2 * y + x / 2) ||| BitVec.ofNat 8 (a.toNat / 16 * 2 ^ (4 - 4 * (x % 2))))) ∧
    (MayEncode .a8 s → StoresByte .a8 s (w * y + x) a)

/-- The indexed encoders: the REMAP colour of the pixel is resolved to the lowest index i of an equal palette entry, and the
index is placed as an alpha field is, after the palette region of 4 * 2^k bytes (43 R156 to R160, 42 R133). -/
def Obligations.IndexedEncodersPlaceIndex : Prop :=
  ∀ (s : State) (c : Color) (i x y w a : Nat), x = s.cur.x.toNat → y = s.cur.y.toNat → w = s.l.w.toNat →
    a = 4 * (w * y + x) → s.status.palv = true →
    Memory.read s.remap a = some c.r → Memory.read s.remap (a + 1) = some c.g → Memory.read s.remap (a + 2) = some c.b →
    Memory.read s.remap (a + 3) = some c.a →
    s.pal[i]? = some c → (∀ j < i, s.pal[j]? ≠ some c) →
    (MayEncode .i1 s → i < 2 → StoresByte .i1 s (8 + (w + 7) / 8 * y + x / 8)
      (byteThere s (8 + (w + 7) / 8 * y + x / 8) ||| BitVec.ofNat 8 (i * 2 ^ (7 - x % 8)))) ∧
    (MayEncode .i2 s → i < 4 → StoresByte .i2 s (16 + (w + 3) / 4 * y + x / 4)
      (byteThere s (16 + (w + 3) / 4 * y + x / 4) ||| BitVec.ofNat 8 (i * 2 ^ (6 - 2 * (x % 4))))) ∧
    (MayEncode .i4 s → i < 16 → StoresByte .i4 s (64 + (w + 1) / 2 * y + x / 2)
      (byteThere s (64 + (w + 1) / 2 * y + x / 2) ||| BitVec.ofNat 8 (i * 2 ^ (4 - 4 * (x % 2))))) ∧
    (MayEncode .i8 s → i < 256 → StoresByte .i8 s (1024 + w * y + x) (BitVec.ofNat 8 i))

/-- A REMAP colour that no entry of the conversion's palette equals raises IE_PALETTE_MISS before the field is written
(43 R156, 60 R213). -/
def Obligations.IndexedEncoderMissRaises : Prop :=
  ∀ (s : State) (e : Encoder) (k a : Nat) (c : Color), indexBits e = some k → MayEncode e s → s.status.palv = true →
    a = 4 * (s.l.w.toNat * s.cur.y.toNat + s.cur.x.toNat) →
    Memory.read s.remap a = some c.r → Memory.read s.remap (a + 1) = some c.g → Memory.read s.remap (a + 2) = some c.b →
    Memory.read s.remap (a + 3) = some c.a → (∀ i < 2 ^ k, s.pal[i]? ≠ some c) →
    EntersError (encoderInstr e) s .iePaletteMiss

/-- After every pixel encoder the cursor is at the next pixel in raster order: the next column, the start of the next row, the
start of the second pass, or the end of the sub-conversion, which is then complete; the dither state is not touched (44 R177 to
R179, R185, 43 R140). -/
def Obligations.EncodersAdvanceCursor : Prop :=
  ∀ (s t : State) (e : Encoder), e ≠ .raw → s.status.err = false → exec (encoderInstr e) s = .next t → t.status.err = false →
    s.cur.x.toNat < s.l.w.toNat → s.cur.y.toNat < s.l.h.toNat →
    (t.nerr = s.nerr ∧ t.earr = s.earr) ∧
    (s.cur.x.toNat + 1 < s.l.w.toNat → t.cur = { s.cur with x := s.cur.x + 1 } ∧ t.status.subdone = s.status.subdone) ∧
    (s.cur.x.toNat + 1 = s.l.w.toNat → s.cur.y.toNat + 1 < s.l.h.toNat →
      t.cur = { s.cur with x := 0, y := s.cur.y + 1 } ∧ t.status.subdone = s.status.subdone) ∧
    (s.cur.x.toNat + 1 = s.l.w.toNat → s.cur.y.toNat + 1 = s.l.h.toNat → s.l.fmt = .planar565a8 → s.cur.pass = false →
      t.cur = { s.cur with x := 0, y := 0, pass := true } ∧ t.status.subdone = s.status.subdone) ∧
    (s.cur.x.toNat + 1 = s.l.w.toNat → s.cur.y.toNat + 1 = s.l.h.toNat → (s.l.fmt ≠ .planar565a8 ∨ s.cur.pass = true) →
      t.cur = { s.cur with x := 0, y := s.l.h } ∧ t.status.subdone = s.status.subdone ||| (1#4 <<< s.cur.sub.toNat))

/-- ENC.RAW copies RAWIN 0 .. RAWLEN - 1 to the same addresses of the output buffer and completes the sub-conversion; it changes
nothing else, the cursor included (43 R161). -/
def Obligations.RawCopiesSource : Prop :=
  ∀ s : State, MayEncode .raw s → (∀ j < s.l.rawlen.toNat, Memory.read s.rawin j ≠ none) →
    ∃ t, exec .encRaw s = .next t ∧
      t = { s with obuf := t.obuf, status := { s.status with subdone := s.status.subdone ||| (1#4 <<< s.cur.sub.toNat) } } ∧
      (∀ i, i ≠ s.cur.sub → t.obuf.get i = s.obuf.get i) ∧
      ∀ j, Memory.read (t.obuf.get s.cur.sub) j =
        if j < s.l.rawlen.toNat then Memory.read s.rawin j else Memory.read (s.obuf.get s.cur.sub) j

/-! ### The Serializer (45_serializer.md) -/

/-- HDR writes the header word code + W * 2^10 + H * 2^21 into RES, and nothing else (45 R191, R192), and the word's fields
[9:0], [20:10] and [31:21] give the format code, the width and the height back (30 R94). -/
def Obligations.HdrWritesHeaderWord : Prop :=
  ∀ (s : State) (c : BitVec 10), s.status.err = false → s.status.initOk = true → formatCode s.params s.l.fmt = some c →
    s.l.w.toNat ≤ 2047 → s.l.h.toNat ≤ 2047 →
    ∃ word : Word, word.toNat = c.toNat + s.l.w.toNat * 2 ^ 10 + s.l.h.toNat * 2 ^ 21 ∧
      exec .hdr s = .next { s with res := word } ∧ (word.extractLsb' 0 10).toNat = c.toNat ∧
      (word.extractLsb' 10 11).toNat = s.l.w.toNat ∧ (word.extractLsb' 21 11).toNat = s.l.h.toNat

/-- SERB of a complete binary conversion: OSTREAM is the header word, low byte first, then the output buffer as it is; OUTLEN is
its length, DONE is set, nothing else changes (45 R194, R205). -/
def Obligations.SerbWritesArtifact : Prop :=
  ∀ (s : State) (c : BitVec 10) (n : Nat) (body : List Byte), s.status.err = false → s.status.initOk = true →
    s.l.out = true → s.status.subDone 0 = true → (isIndexed s.l.fmt = true → s.status.palv = true) →
    formatCode s.params s.l.fmt = some c → s.l.w.toNat ≤ 2047 → s.l.h.toNat ≤ 2047 →
    expLen s.l 0 = some n → Memory.len s.obuf.b0 = n → body.length = n →
    (∀ j < n, Memory.read s.obuf.b0 j = body[j]?) → n + 4 < 2 ^ 32 →
    exec .serb s = .next
      (let word := c.toNat + s.l.w.toNat * 2 ^ 10 + s.l.h.toNat * 2 ^ 21
       { s with
        ostream := [BitVec.ofNat 8 word, BitVec.ofNat 8 (word / 2 ^ 8), BitVec.ofNat 8 (word / 2 ^ 16),
          BitVec.ofNat 8 (word / 2 ^ 24)] ++ body
        outlen := BitVec.ofNat 32 (n + 4)
        status := { s.status with done := true } })

/-- SERT of a complete text conversion: OSTREAM is Text(L) of the complete output buffers in order, OUTLEN its length, DONE is
set, nothing else changes (45 R196, R197, R205). -/
def Obligations.SertWritesArtifact : Prop :=
  ∀ (s : State) (bodies : List (List Byte)), s.status.err = false → s.status.initOk = true → s.l.out = false →
    bodies.length = nSub s.l.fmt s.l.out →
    (∀ i : BitVec 2, i.toNat < bodies.length →
      s.status.subDone i = true ∧ expLen s.l i = some (bodies.getD i.toNat []).length ∧
        Memory.len (s.obuf.get i) = (bodies.getD i.toNat []).length ∧
        ∀ j < (bodies.getD i.toNat []).length, Memory.read (s.obuf.get i) j = (bodies.getD i.toNat [])[j]?) →
    (isIndexed s.l.fmt = true → s.status.palv = true) →
    (textArtifact s.params s.l bodies).length < 2 ^ 32 →
    exec .sert s = .next { s with
      ostream := textArtifact s.params s.l bodies
      outlen := BitVec.ofNat 32 (textArtifact s.params s.l bodies).length
      status := { s.status with done := true } }

/-- A serializer that finds a complete sub-conversion's buffer of another length than ExpLen, or with an unwritten byte, raises
IE_INDEX_RANGE (45 R195). -/
def Obligations.BadBufferRaises : Prop :=
  ∀ (s : State) (n : Nat) (i : BitVec 2), s.status.err = false → s.status.initOk = true →
    (∀ j : BitVec 2, j.toNat < nSub s.l.fmt s.l.out → s.status.subDone j = true) →
    (isIndexed s.l.fmt = true → s.status.palv = true) →
    i.toNat < nSub s.l.fmt s.l.out → expLen s.l i = some n →
    (Memory.len (s.obuf.get i) ≠ n ∨ ∃ p < n, Memory.read (s.obuf.get i) p = none) →
    EntersError .serb s .ieIndexRange ∧ EntersError .sert s .ieIndexRange

/-- Every character of Text(L) is printable ASCII or LF, and the text ends with an LF, whenever the parameters NAME and CF_NAME
are printable ASCII (45 R197). -/
def Obligations.TextIsPrintableAscii : Prop :=
  ∀ (p : Params) (l : Latched) (bodies : List (List Byte)),
    let printable := fun b : Byte => 0x20 ≤ b.toNat ∧ b.toNat ≤ 0x7E
    (∀ b ∈ p.name, printable b) → (∀ k n, (k, n) ∈ p.cfNames → ∀ b ∈ n, printable b) →
    (∀ b ∈ textArtifact p l bodies, printable b ∨ b = 0x0A) ∧ (textArtifact p l bodies).getLast? = some 0x0A

/-- The rows of Lines(B): in order they are B, there are ceilDiv(n, TEXT_WRAP) of them, each holds at most TEXT_WRAP bytes and
at least one, and every row but the last holds exactly TEXT_WRAP (45 R201). -/
def Obligations.BodyRowsAreFull : Prop :=
  ∀ (w : Nat) (b : List Byte), 0 < w →
    (chunks w b).flatten = b ∧ (chunks w b).length = (b.length + w - 1) / w ∧
    (∀ row ∈ chunks w b, 1 ≤ row.length ∧ row.length ≤ w) ∧
    (∀ j row, j + 1 < (chunks w b).length → (chunks w b)[j]? = some row → row.length = w)

/-- Every step keeps the exactness of the output buffers (43 R162, 20 R73). -/
def Obligations.StepKeepsBuffersExact : Prop :=
  ∀ s t : State, s.Inv → s.BufferInv → step s = .next t → t.BufferInv

/-- IE_INDEX_RANGE is unreachable: where the output buffers are exact, no serializer raises it (45 R195, 60 R213). -/
def Obligations.SerializersNeverRaiseIndexRange : Prop :=
  ∀ s t : State, s.Inv → s.BufferInv → s.status.err = false → (exec .serb s = .next t ∨ exec .sert s = .next t) →
    t.status.ecode ≠ .ieIndexRange

/-- RUN of a binary raw request whose decoder reports its dimensions (DEC_FAIL = 0), end to end: RUN and the three commands of its
program leave the idle block with DONE = 1 and OSTREAM = the header word, low byte first, then RAWIN as it is (45 R206, 44 R182,
R183). That BUSY = 0 already in the state right after the third command is the model's reading, DEDUCED (log 17); that an empty
agenda is the sequencer's turn is log 1. With DEC_FAIL = 1 the dimensions are those of `InitStartsConversion`. -/
def Obligations.RawRunGivesSource : Prop :=
  ∀ (s : State) (f : Fmt) (c : BitVec 10) (body : List Byte), s.agenda = [] → s.status.busy = false → s.waiting = false →
    fmtOfCode (cfgFmt s.cfg) = some f → isRaw f = true → cfgOut s.cfg = true → formatCode s.params f = some c →
    s.instat.getLsbD 0 = false → (dimsW s.dims).toNat ≤ 2047 → (dimsH s.dims).toNat ≤ 2047 →
    body.length = s.rawlen.toNat → (∀ j < body.length, Memory.read s.rawin j = body[j]?) → body.length + 4 < 2 ^ 32 →
    ∃ t u, exec .run s = .next t ∧ Sys2Proof.core.run 3 t = .next u ∧
      u.status.busy = false ∧ u.status.done = true ∧ u.status.err = false ∧ u.pq = [] ∧
      u.outlen = BitVec.ofNat 32 (body.length + 4) ∧
      u.ostream = le32 (BitVec.ofNat 32 (c.toNat + (dimsW s.dims).toNat * 2 ^ 10 + (dimsH s.dims).toNat * 2 ^ 21)) ++ body

/-! ### Reset, the register window, the invariant -/

/-- Every register, flag, memory and internal state of the block has the value of 10 R46 after reset. -/
def Obligations.ResetValues : Prop :=
  let r := State.reset
  (r.cfg = 0 ∧ r.dims = 0 ∧ r.odims = 0 ∧ r.instat = 0 ∧ r.rawlen = 0 ∧ r.arg = 0 ∧ r.status.word = 0 ∧ r.res = 0 ∧ r.outlen = 0 ∧
    curWord r.cur = 0 ∧ curpWord r.cur = 0) ∧
  r.l = { fmt := .tc332, alpha := false, out := false, swap := false, dith := false, binsub := 0, w := 0, h := 0, rawlen := 0,
          nsub := 1 } ∧
  (r.pq = [] ∧ r.act = ⟨0, 0, 0⟩ ∧ r.nerr = ⟨0, 0, 0⟩ ∧ r.earr = ⟨[0, 0], [0, 0], [0, 0]⟩ ∧ r.pal.length = 256 ∧
    ∀ c ∈ r.pal, c = { r := 0, g := 0, b := 0, a := 0 }) ∧
  (r.obuf = ⟨[], [], [], []⟩ ∧ r.ostream = [] ∧
    ∀ a, Memory.read r.raster a = none ∧ Memory.read r.rawin a = none ∧ Memory.read r.remap a = none)

/-- STATUS as a number, by the bit positions of 10 R32 and the ECODE values of 60 R211: BUSY [0], DONE [1], ERR [2], WARN [3],
PALV [4], ACTV [5], ECODE [11:8], SUBDONE [15:12], INIT_OK [16]. -/
def statusNumber (t : Status) : Nat :=
  t.busy.toNat + 2 * t.done.toNat + 4 * t.err.toNat + 8 * t.warn.toNat + 16 * t.palv.toNat + 32 * t.actv.toNat +
    256 * [ErrCode.none, .ceUnknownFormat, .ceNoBinsub, .ceNoFormatCode, .ceDimsRange, .loadError, .iePaletteMiss,
      .ieIndexRange, .ieCollaborator, .cmdIllegal].idxOf t.ecode +
    4096 * t.subdone.toNat + 65536 * t.initOk.toNat

/-- A register read while the host may read, at a 4-byte aligned offset of the window with 32 bits: it gives the register's
value, 0 for CMD and for the reserved offsets, and changes nothing of the block; STATUS, CUR and CURP by their bit positions
(10 R21, R22, R32, R36; 20 R75). -/
def Obligations.RegisterReads : Prop :=
  ∀ (s : State) (rest : List Move) (k : Nat), k < 64 → s.agenda = .host (.readReg (4 * k) 4) :: rest →
    step s = .next { s with
      agenda := rest
      hostData := some (([s.cfg, s.dims, s.odims, s.instat, s.rawlen, s.arg, 0, BitVec.ofNat 32 (statusNumber s.status), s.res, s.outlen,
        s.cur.y ++ s.cur.x, (0 : BitVec 29) ++ s.cur.sub ++ BitVec.ofBool s.cur.pass] : List Word).getD k 0) }

/-- A register write while BUSY = 0: CFG keeps bits [11:0], INSTAT bits [1:0], DIMS, ODIMS, RAWLEN and ARG all bits; the
read-only registers and the reserved offsets ignore it; nothing else changes (10 R21, R22, R25, R28). -/
def Obligations.RegisterWrites : Prop :=
  ∀ (s : State) (rest : List Move) (k : Nat) (v : Word), k < 64 → k ≠ 6 → s.status.busy = false →
    s.agenda = .host (.writeReg (4 * k) 4 v) :: rest →
    step s = .next { s with
      agenda := rest
      cfg := if k = 0 then BitVec.ofNat 32 (v.toNat % 2 ^ 12) else s.cfg
      dims := if k = 1 then v else s.dims
      odims := if k = 2 then v else s.odims
      instat := if k = 3 then BitVec.ofNat 32 (v.toNat % 4) else s.instat
      rawlen := if k = 4 then v else s.rawlen
      arg := if k = 5 then v else s.arg }

/-- The moves the model gives the host no step for: a register write while BUSY = 1, a RASTER or RAWIN write from INIT to the end
of the conversion, a register access of another width or alignment, an OSTREAM read while DONE = 0 or at or above OUTLEN
(70 R238, R240; 20 R66, R74). -/
def Obligations.HostDutiesRefused : Prop :=
  ∀ (s : State) (rest : List Move),
    (∀ k v, k < 12 → s.status.busy = true → s.agenda = .host (.writeReg (4 * k) 4 v) :: rest → step s = .refused .hostDuty) ∧
    (∀ a b, s.status.busy = true ∨ (s.status.initOk = true ∧ s.status.done = false) →
      s.agenda = .host (.writeRaster a b) :: rest ∨ s.agenda = .host (.writeRawin a b) :: rest → step s = .refused .hostDuty) ∧
    (∀ o n v, n ≠ 4 ∨ o % 4 ≠ 0 →
      s.agenda = .host (.readReg o n) :: rest ∨ s.agenda = .host (.writeReg o n v) :: rest → step s = .refused .accessShape) ∧
    (∀ a, s.status.done = false ∨ s.outlen.toNat ≤ a →
      s.agenda = .host (.readOstream a) :: rest → step s = .refused .artifactRead)

/-- The host reads the artifact and writes the input memories: an OSTREAM byte below OUTLEN while DONE = 1, a byte of RASTER or
RAWIN while no conversion is in progress, every other byte as before (20 R60, R66, R77). -/
def Obligations.HostMovesData : Prop :=
  ∀ (s : State) (rest : List Move) (a : Nat) (b : Byte),
    (s.status.done = true → a < s.outlen.toNat → s.ostream[a]? = some b → s.agenda = .host (.readOstream a) :: rest →
      step s = .next { s with agenda := rest, hostData := some (BitVec.ofNat 32 b.toNat) }) ∧
    (s.status.busy = false → (s.status.initOk = true → s.status.done = true) →
      (s.agenda = .host (.writeRaster a b) :: rest → ∃ m, step s = .next { s with agenda := rest, raster := m } ∧
        ∀ p, Memory.read m p = if p = a then some b else Memory.read s.raster p) ∧
      (s.agenda = .host (.writeRawin a b) :: rest → ∃ m, step s = .next { s with agenda := rest, rawin := m } ∧
        ∀ p, Memory.read m p = if p = a then some b else Memory.read s.rawin p))

/-- The state right after reset meets the invariants. -/
def Obligations.ResetMeetsInvariants : Prop := State.reset.Inv ∧ State.reset.DitherInv ∧ State.reset.BufferInv

/-- Every step, of every agent, in every state that meets the invariant, gives a state that meets it: the memories keep their
canonical form, the reserved bits read 0, PAL and EARR keep their sizes and NERR its range, PQ is empty while BUSY = 0, OSTREAM
is empty while DONE = 0 and OUTLEN > 0 while DONE = 1, ECODE is 0 exactly while ERR = 0, L is always a request INIT admits, the cursor stays in the
raster. -/
def Obligations.StepKeepsInvariant : Prop := ∀ s t : State, s.Inv → step s = .next t → t.Inv
end

