-- ==== Sys2Proof/Laws/Memory.lean ====
section
/-! SUPPORT. The laws of the byte memories: what a read gives after a write, the canonical form is kept by every write, and
the length. -/

namespace Sys2Proof.Machine

@[simp] theorem Memory.read_nil (a : Nat) : Memory.read [] a = none := rfl

theorem Memory.read_write (m : Memory) (a a' : Nat) (b : Byte) :
    Memory.read (Memory.write m a b) a' = if a' = a then some b else Memory.read m a' := by
  induction m with
  | nil => simp [Memory.write, Memory.read]
  | cons c t ih =>
    obtain ⟨k, v⟩ := c
    simp only [Memory.write]
    split
    · simp [Memory.read]
    · split
      · subst_vars
        simp only [Memory.read]
        split <;> rfl
      · simp only [Memory.read, ih]
        by_cases h1 : a' = k
        · subst h1
          have : a' ≠ a := fun h => by subst h; contradiction
          simp [this]
        · simp [h1]

@[simp] theorem Memory.read_write_same (m : Memory) (a : Nat) (b : Byte) : Memory.read (Memory.write m a b) a = some b := by
  simp [Memory.read_write]

theorem Memory.read_write_other (m : Memory) {a a' : Nat} (b : Byte) (h : a' ≠ a) :
    Memory.read (Memory.write m a b) a' = Memory.read m a' := by
  simp [Memory.read_write, h]

theorem Memory.mem_write {m : Memory} {a : Nat} {b : Byte} {c : Host.Cell} (h : c ∈ Memory.write m a b) :
    c = (a, b) ∨ c ∈ m := by
  induction m with
  | nil => simpa [Memory.write] using h
  | cons d t ih =>
    simp only [Memory.write] at h
    split at h
    · simpa using h
    · split at h
      · simp only [List.mem_cons] at h ⊢
        tauto
      · simp only [List.mem_cons] at h ⊢
        rcases h with h | h
        · exact .inr (.inl h)
        · rcases ih h with h | h
          · exact .inl h
          · exact .inr (.inr h)

theorem Memory.wf_write {m : Memory} (h : m.wf) (a : Nat) (b : Byte) : (Memory.write m a b).wf := by
  induction m with
  | nil => simp [Memory.write, Memory.wf]
  | cons c t ih =>
    obtain ⟨k, v⟩ := c
    simp only [Memory.wf, List.pairwise_cons] at h
    obtain ⟨hk, ht⟩ := h
    simp only [Memory.write]
    split
    · rename_i hlt
      simp only [Memory.wf, List.pairwise_cons, List.mem_cons]
      refine ⟨?_, hk, ht⟩
      rintro c (rfl | hc)
      · exact hlt
      · exact lt_trans hlt (hk c hc)
    · split
      · rename_i hne heq
        subst heq
        exact List.pairwise_cons.2 ⟨hk, ht⟩
      · rename_i h1 h2
        refine List.pairwise_cons.2 ⟨?_, ih ht⟩
        intro c hc
        rcases Memory.mem_write hc with rfl | hc
        · exact lt_of_le_of_ne (not_lt.1 h1) (fun h => h2 h.symm)
        · exact hk c hc

theorem Memory.wf_writeList {m : Memory} (h : m.wf) (a : Nat) (bs : List Byte) : (Memory.writeList m a bs).wf := by
  induction bs generalizing m a with
  | nil => exact h
  | cons b t ih => exact ih (Memory.wf_write h a b) (a + 1)

/-- A read after a run of bytes was written: inside the run its byte, outside it what was there. -/
theorem Memory.read_writeList (m : Memory) (a a' : Nat) (bs : List Byte) :
    Memory.read (Memory.writeList m a bs) a' =
      if a ≤ a' ∧ a' < a + bs.length then bs[a' - a]? else Memory.read m a' := by
  induction bs generalizing m a with
  | nil =>
    have : ¬ (a ≤ a' ∧ a' < a + ([] : List Byte).length) := by simp only [List.length_nil]; omega
    rw [if_neg this]; rfl
  | cons b t ih =>
    simp only [Memory.writeList, ih, Memory.read_write, List.length_cons]
    by_cases h : a' = a
    · subst h
      have h2 : a' ≤ a' ∧ a' < a' + (t.length + 1) := by omega
      simp [h2]
    · by_cases h3 : a + 1 ≤ a' ∧ a' < a + 1 + t.length
      · have h4 : a ≤ a' ∧ a' < a + (t.length + 1) := by omega
        have h5 : a' - a = (a' - (a + 1)) + 1 := by omega
        rw [if_pos h3, if_pos h4, h5, List.getElem?_cons_succ]
      · have h4 : ¬ (a ≤ a' ∧ a' < a + (t.length + 1)) := by omega
        rw [if_neg h3, if_neg h4, if_neg h]

@[simp] theorem Memory.len_nil : Memory.len [] = 0 := rfl

theorem Memory.len_write (m : Memory) (a : Nat) (b : Byte) :
    Memory.len (Memory.write m a b) = max (a + 1) (Memory.len m) := by
  induction m with
  | nil => rfl
  | cons c t ih =>
    obtain ⟨k, v⟩ := c
    simp only [Memory.write]
    split
    · simp [Memory.len]
    · split
      · subst_vars; simp [Memory.len]
      · simp only [Memory.len, ih]; omega

theorem Memory.len_writeList (m : Memory) (a : Nat) (bs : List Byte) :
    Memory.len (Memory.writeList m a bs) = if bs = [] then Memory.len m else max (a + bs.length) (Memory.len m) := by
  induction bs generalizing m a with
  | nil => rfl
  | cons b t ih =>
    simp only [Memory.writeList, ih, Memory.len_write, List.length_cons, reduceCtorEq, if_false]
    split
    · subst_vars; simp
    · omega

theorem Memory.read_of_len_le (m : Memory) {a : Nat} (h : Memory.len m ≤ a) : Memory.read m a = none := by
  induction m with
  | nil => rfl
  | cons c t ih =>
    obtain ⟨k, v⟩ := c
    simp only [Memory.len] at h
    have h1 : a ≠ k := by omega
    simp only [Memory.read, if_neg h1]
    exact ih (by omega)

theorem Memory.readList_length {m : Memory} {a n : Nat} {bs : List Byte} (h : Memory.readList m a n = some bs) :
    bs.length = n := by
  induction n generalizing a bs with
  | zero => simp [Memory.readList] at h; simp [h]
  | succ n ih =>
    simp only [Memory.readList] at h
    split at h
    · rename_i b t hb ht
      simp only [Option.some.injEq] at h
      subst h
      simp [ih ht]
    · cases h

theorem Memory.readList_get {m : Memory} {a n i : Nat} {bs : List Byte} (h : Memory.readList m a n = some bs) (hi : i < n) :
    Memory.read m (a + i) = bs[i]? := by
  induction n generalizing a bs i with
  | zero => omega
  | succ n ih =>
    simp only [Memory.readList] at h
    split at h
    · rename_i b t hb ht
      simp only [Option.some.injEq] at h
      subst h
      cases i with
      | zero => simpa using hb
      | succ i =>
        have h1 : a + (i + 1) = a + 1 + i := by omega
        rw [h1, ih ht (by omega), List.getElem?_cons_succ]
    · cases h

/-- Writing to the buffer of one sub-conversion. -/
@[simp] theorem Obufs.get_set_same (o : Obufs) (i : BitVec 2) (m : Memory) : (o.set i m).get i = m := by
  obtain ⟨i, hi⟩ := i
  have : i = 0 ∨ i = 1 ∨ i = 2 ∨ i = 3 := by omega
  rcases this with rfl | rfl | rfl | rfl <;> rfl

theorem Obufs.get_set_other (o : Obufs) {i j : BitVec 2} (m : Memory) (h : j ≠ i) : (o.set i m).get j = o.get j := by
  obtain ⟨i, hi⟩ := i
  obtain ⟨j, hj⟩ := j
  have h1 : i = 0 ∨ i = 1 ∨ i = 2 ∨ i = 3 := by omega
  have h2 : j = 0 ∨ j = 1 ∨ j = 2 ∨ j = 3 := by omega
  rcases h1 with rfl | rfl | rfl | rfl <;> rcases h2 with rfl | rfl | rfl | rfl <;>
    first
    | exact absurd rfl h
    | rfl

end Sys2Proof.Machine
end

