-- ==== Sys2Proof/Laws/State.lean ====
section
/-! SUPPORT. One lemma for each field of the state and each shared update, so that no later proof unfolds a record update. -/

namespace Sys2Proof.Machine

/-! ### raiseError -/

@[simp] theorem raiseError_cfg (c : ErrCode) (s : State) : (raiseError c s).cfg = s.cfg := rfl
@[simp] theorem raiseError_dims (c : ErrCode) (s : State) : (raiseError c s).dims = s.dims := rfl
@[simp] theorem raiseError_odims (c : ErrCode) (s : State) : (raiseError c s).odims = s.odims := rfl
@[simp] theorem raiseError_instat (c : ErrCode) (s : State) : (raiseError c s).instat = s.instat := rfl
@[simp] theorem raiseError_rawlen (c : ErrCode) (s : State) : (raiseError c s).rawlen = s.rawlen := rfl
@[simp] theorem raiseError_arg (c : ErrCode) (s : State) : (raiseError c s).arg = s.arg := rfl
@[simp] theorem raiseError_status (c : ErrCode) (s : State) : (raiseError c s).status = s.status.enterError c := rfl
@[simp] theorem raiseError_res (c : ErrCode) (s : State) : (raiseError c s).res = s.res := rfl
@[simp] theorem raiseError_outlen (c : ErrCode) (s : State) : (raiseError c s).outlen = 0 := rfl
@[simp] theorem raiseError_l (c : ErrCode) (s : State) : (raiseError c s).l = s.l := rfl
@[simp] theorem raiseError_cur (c : ErrCode) (s : State) : (raiseError c s).cur = s.cur := rfl
@[simp] theorem raiseError_pq (c : ErrCode) (s : State) : (raiseError c s).pq = [] := rfl
@[simp] theorem raiseError_waiting (c : ErrCode) (s : State) : (raiseError c s).waiting = false := rfl
@[simp] theorem raiseError_act (c : ErrCode) (s : State) : (raiseError c s).act = s.act := rfl
@[simp] theorem raiseError_nerr (c : ErrCode) (s : State) : (raiseError c s).nerr = s.nerr := rfl
@[simp] theorem raiseError_earr (c : ErrCode) (s : State) : (raiseError c s).earr = s.earr := rfl
@[simp] theorem raiseError_pal (c : ErrCode) (s : State) : (raiseError c s).pal = s.pal := rfl
@[simp] theorem raiseError_raster (c : ErrCode) (s : State) : (raiseError c s).raster = s.raster := rfl
@[simp] theorem raiseError_rawin (c : ErrCode) (s : State) : (raiseError c s).rawin = s.rawin := rfl
@[simp] theorem raiseError_remap (c : ErrCode) (s : State) : (raiseError c s).remap = s.remap := rfl
@[simp] theorem raiseError_obuf (c : ErrCode) (s : State) : (raiseError c s).obuf = s.obuf := rfl
@[simp] theorem raiseError_ostream (c : ErrCode) (s : State) : (raiseError c s).ostream = [] := rfl
@[simp] theorem raiseError_params (c : ErrCode) (s : State) : (raiseError c s).params = s.params := rfl
@[simp] theorem raiseError_palq (c : ErrCode) (s : State) : (raiseError c s).palq = s.palq := rfl
@[simp] theorem raiseError_agenda (c : ErrCode) (s : State) : (raiseError c s).agenda = s.agenda := rfl
@[simp] theorem raiseError_collabDefers (c : ErrCode) (s : State) : (raiseError c s).collabDefers = s.collabDefers := rfl
@[simp] theorem raiseError_hostData (c : ErrCode) (s : State) : (raiseError c s).hostData = s.hostData := rfl

/-! ### clearOutcome -/

@[simp] theorem clearOutcome_cfg (s : State) : (clearOutcome s).cfg = s.cfg := rfl
@[simp] theorem clearOutcome_dims (s : State) : (clearOutcome s).dims = s.dims := rfl
@[simp] theorem clearOutcome_odims (s : State) : (clearOutcome s).odims = s.odims := rfl
@[simp] theorem clearOutcome_instat (s : State) : (clearOutcome s).instat = s.instat := rfl
@[simp] theorem clearOutcome_rawlen (s : State) : (clearOutcome s).rawlen = s.rawlen := rfl
@[simp] theorem clearOutcome_arg (s : State) : (clearOutcome s).arg = s.arg := rfl
@[simp] theorem clearOutcome_status (s : State) : (clearOutcome s).status = s.status.clearOutcome := rfl
@[simp] theorem clearOutcome_res (s : State) : (clearOutcome s).res = s.res := rfl
@[simp] theorem clearOutcome_outlen (s : State) : (clearOutcome s).outlen = 0 := rfl
@[simp] theorem clearOutcome_l (s : State) : (clearOutcome s).l = s.l := rfl
@[simp] theorem clearOutcome_cur (s : State) : (clearOutcome s).cur = s.cur := rfl
@[simp] theorem clearOutcome_pq (s : State) : (clearOutcome s).pq = s.pq := rfl
@[simp] theorem clearOutcome_waiting (s : State) : (clearOutcome s).waiting = s.waiting := rfl
@[simp] theorem clearOutcome_act (s : State) : (clearOutcome s).act = s.act := rfl
@[simp] theorem clearOutcome_nerr (s : State) : (clearOutcome s).nerr = s.nerr := rfl
@[simp] theorem clearOutcome_earr (s : State) : (clearOutcome s).earr = s.earr := rfl
@[simp] theorem clearOutcome_pal (s : State) : (clearOutcome s).pal = s.pal := rfl
@[simp] theorem clearOutcome_raster (s : State) : (clearOutcome s).raster = s.raster := rfl
@[simp] theorem clearOutcome_rawin (s : State) : (clearOutcome s).rawin = s.rawin := rfl
@[simp] theorem clearOutcome_remap (s : State) : (clearOutcome s).remap = s.remap := rfl
@[simp] theorem clearOutcome_obuf (s : State) : (clearOutcome s).obuf = s.obuf := rfl
@[simp] theorem clearOutcome_ostream (s : State) : (clearOutcome s).ostream = [] := rfl
@[simp] theorem clearOutcome_params (s : State) : (clearOutcome s).params = s.params := rfl
@[simp] theorem clearOutcome_palq (s : State) : (clearOutcome s).palq = s.palq := rfl
@[simp] theorem clearOutcome_agenda (s : State) : (clearOutcome s).agenda = s.agenda := rfl
@[simp] theorem clearOutcome_collabDefers (s : State) : (clearOutcome s).collabDefers = s.collabDefers := rfl
@[simp] theorem clearOutcome_hostData (s : State) : (clearOutcome s).hostData = s.hostData := rfl

/-! ### complete -/

@[simp] theorem complete_cfg (s : State) (i : BitVec 2) : (complete s i).cfg = s.cfg := rfl
@[simp] theorem complete_dims (s : State) (i : BitVec 2) : (complete s i).dims = s.dims := rfl
@[simp] theorem complete_odims (s : State) (i : BitVec 2) : (complete s i).odims = s.odims := rfl
@[simp] theorem complete_instat (s : State) (i : BitVec 2) : (complete s i).instat = s.instat := rfl
@[simp] theorem complete_rawlen (s : State) (i : BitVec 2) : (complete s i).rawlen = s.rawlen := rfl
@[simp] theorem complete_arg (s : State) (i : BitVec 2) : (complete s i).arg = s.arg := rfl
@[simp] theorem complete_status (s : State) (i : BitVec 2) : (complete s i).status = s.status.complete i := rfl
@[simp] theorem complete_res (s : State) (i : BitVec 2) : (complete s i).res = s.res := rfl
@[simp] theorem complete_outlen (s : State) (i : BitVec 2) : (complete s i).outlen = s.outlen := rfl
@[simp] theorem complete_l (s : State) (i : BitVec 2) : (complete s i).l = s.l := rfl
@[simp] theorem complete_cur (s : State) (i : BitVec 2) : (complete s i).cur = s.cur := rfl
@[simp] theorem complete_pq (s : State) (i : BitVec 2) : (complete s i).pq = s.pq := rfl
@[simp] theorem complete_waiting (s : State) (i : BitVec 2) : (complete s i).waiting = s.waiting := rfl
@[simp] theorem complete_act (s : State) (i : BitVec 2) : (complete s i).act = s.act := rfl
@[simp] theorem complete_nerr (s : State) (i : BitVec 2) : (complete s i).nerr = s.nerr := rfl
@[simp] theorem complete_earr (s : State) (i : BitVec 2) : (complete s i).earr = s.earr := rfl
@[simp] theorem complete_pal (s : State) (i : BitVec 2) : (complete s i).pal = s.pal := rfl
@[simp] theorem complete_raster (s : State) (i : BitVec 2) : (complete s i).raster = s.raster := rfl
@[simp] theorem complete_rawin (s : State) (i : BitVec 2) : (complete s i).rawin = s.rawin := rfl
@[simp] theorem complete_remap (s : State) (i : BitVec 2) : (complete s i).remap = s.remap := rfl
@[simp] theorem complete_obuf (s : State) (i : BitVec 2) : (complete s i).obuf = s.obuf := rfl
@[simp] theorem complete_ostream (s : State) (i : BitVec 2) : (complete s i).ostream = s.ostream := rfl
@[simp] theorem complete_params (s : State) (i : BitVec 2) : (complete s i).params = s.params := rfl
@[simp] theorem complete_palq (s : State) (i : BitVec 2) : (complete s i).palq = s.palq := rfl
@[simp] theorem complete_agenda (s : State) (i : BitVec 2) : (complete s i).agenda = s.agenda := rfl
@[simp] theorem complete_collabDefers (s : State) (i : BitVec 2) : (complete s i).collabDefers = s.collabDefers := rfl
@[simp] theorem complete_hostData (s : State) (i : BitVec 2) : (complete s i).hostData = s.hostData := rfl

/-! ### setCurObuf -/

@[simp] theorem setCurObuf_cfg (s : State) (m : Memory) : (setCurObuf s m).cfg = s.cfg := rfl
@[simp] theorem setCurObuf_dims (s : State) (m : Memory) : (setCurObuf s m).dims = s.dims := rfl
@[simp] theorem setCurObuf_odims (s : State) (m : Memory) : (setCurObuf s m).odims = s.odims := rfl
@[simp] theorem setCurObuf_instat (s : State) (m : Memory) : (setCurObuf s m).instat = s.instat := rfl
@[simp] theorem setCurObuf_rawlen (s : State) (m : Memory) : (setCurObuf s m).rawlen = s.rawlen := rfl
@[simp] theorem setCurObuf_arg (s : State) (m : Memory) : (setCurObuf s m).arg = s.arg := rfl
@[simp] theorem setCurObuf_status (s : State) (m : Memory) : (setCurObuf s m).status = s.status := rfl
@[simp] theorem setCurObuf_res (s : State) (m : Memory) : (setCurObuf s m).res = s.res := rfl
@[simp] theorem setCurObuf_outlen (s : State) (m : Memory) : (setCurObuf s m).outlen = s.outlen := rfl
@[simp] theorem setCurObuf_l (s : State) (m : Memory) : (setCurObuf s m).l = s.l := rfl
@[simp] theorem setCurObuf_cur (s : State) (m : Memory) : (setCurObuf s m).cur = s.cur := rfl
@[simp] theorem setCurObuf_pq (s : State) (m : Memory) : (setCurObuf s m).pq = s.pq := rfl
@[simp] theorem setCurObuf_waiting (s : State) (m : Memory) : (setCurObuf s m).waiting = s.waiting := rfl
@[simp] theorem setCurObuf_act (s : State) (m : Memory) : (setCurObuf s m).act = s.act := rfl
@[simp] theorem setCurObuf_nerr (s : State) (m : Memory) : (setCurObuf s m).nerr = s.nerr := rfl
@[simp] theorem setCurObuf_earr (s : State) (m : Memory) : (setCurObuf s m).earr = s.earr := rfl
@[simp] theorem setCurObuf_pal (s : State) (m : Memory) : (setCurObuf s m).pal = s.pal := rfl
@[simp] theorem setCurObuf_raster (s : State) (m : Memory) : (setCurObuf s m).raster = s.raster := rfl
@[simp] theorem setCurObuf_rawin (s : State) (m : Memory) : (setCurObuf s m).rawin = s.rawin := rfl
@[simp] theorem setCurObuf_remap (s : State) (m : Memory) : (setCurObuf s m).remap = s.remap := rfl
@[simp] theorem setCurObuf_obuf (s : State) (m : Memory) : (setCurObuf s m).obuf = s.obuf.set s.cur.sub m := rfl
@[simp] theorem setCurObuf_ostream (s : State) (m : Memory) : (setCurObuf s m).ostream = s.ostream := rfl
@[simp] theorem setCurObuf_params (s : State) (m : Memory) : (setCurObuf s m).params = s.params := rfl
@[simp] theorem setCurObuf_palq (s : State) (m : Memory) : (setCurObuf s m).palq = s.palq := rfl
@[simp] theorem setCurObuf_agenda (s : State) (m : Memory) : (setCurObuf s m).agenda = s.agenda := rfl
@[simp] theorem setCurObuf_collabDefers (s : State) (m : Memory) : (setCurObuf s m).collabDefers = s.collabDefers := rfl
@[simp] theorem setCurObuf_hostData (s : State) (m : Memory) : (setCurObuf s m).hostData = s.hostData := rfl

/-! ### obufAppend -/

@[simp] theorem obufAppend_cfg (s : State) (bs : List Byte) : (obufAppend s bs).cfg = s.cfg := rfl
@[simp] theorem obufAppend_dims (s : State) (bs : List Byte) : (obufAppend s bs).dims = s.dims := rfl
@[simp] theorem obufAppend_odims (s : State) (bs : List Byte) : (obufAppend s bs).odims = s.odims := rfl
@[simp] theorem obufAppend_instat (s : State) (bs : List Byte) : (obufAppend s bs).instat = s.instat := rfl
@[simp] theorem obufAppend_rawlen (s : State) (bs : List Byte) : (obufAppend s bs).rawlen = s.rawlen := rfl
@[simp] theorem obufAppend_arg (s : State) (bs : List Byte) : (obufAppend s bs).arg = s.arg := rfl
@[simp] theorem obufAppend_status (s : State) (bs : List Byte) : (obufAppend s bs).status = s.status := rfl
@[simp] theorem obufAppend_res (s : State) (bs : List Byte) : (obufAppend s bs).res = s.res := rfl
@[simp] theorem obufAppend_outlen (s : State) (bs : List Byte) : (obufAppend s bs).outlen = s.outlen := rfl
@[simp] theorem obufAppend_l (s : State) (bs : List Byte) : (obufAppend s bs).l = s.l := rfl
@[simp] theorem obufAppend_cur (s : State) (bs : List Byte) : (obufAppend s bs).cur = s.cur := rfl
@[simp] theorem obufAppend_pq (s : State) (bs : List Byte) : (obufAppend s bs).pq = s.pq := rfl
@[simp] theorem obufAppend_waiting (s : State) (bs : List Byte) : (obufAppend s bs).waiting = s.waiting := rfl
@[simp] theorem obufAppend_act (s : State) (bs : List Byte) : (obufAppend s bs).act = s.act := rfl
@[simp] theorem obufAppend_nerr (s : State) (bs : List Byte) : (obufAppend s bs).nerr = s.nerr := rfl
@[simp] theorem obufAppend_earr (s : State) (bs : List Byte) : (obufAppend s bs).earr = s.earr := rfl
@[simp] theorem obufAppend_pal (s : State) (bs : List Byte) : (obufAppend s bs).pal = s.pal := rfl
@[simp] theorem obufAppend_raster (s : State) (bs : List Byte) : (obufAppend s bs).raster = s.raster := rfl
@[simp] theorem obufAppend_rawin (s : State) (bs : List Byte) : (obufAppend s bs).rawin = s.rawin := rfl
@[simp] theorem obufAppend_remap (s : State) (bs : List Byte) : (obufAppend s bs).remap = s.remap := rfl
@[simp] theorem obufAppend_ostream (s : State) (bs : List Byte) : (obufAppend s bs).ostream = s.ostream := rfl
@[simp] theorem obufAppend_params (s : State) (bs : List Byte) : (obufAppend s bs).params = s.params := rfl
@[simp] theorem obufAppend_palq (s : State) (bs : List Byte) : (obufAppend s bs).palq = s.palq := rfl
@[simp] theorem obufAppend_agenda (s : State) (bs : List Byte) : (obufAppend s bs).agenda = s.agenda := rfl
@[simp] theorem obufAppend_collabDefers (s : State) (bs : List Byte) : (obufAppend s bs).collabDefers = s.collabDefers := rfl
@[simp] theorem obufAppend_hostData (s : State) (bs : List Byte) : (obufAppend s bs).hostData = s.hostData := rfl

/-! ### obufSet -/

@[simp] theorem obufSet_cfg (s : State) (a : Nat) (b : Byte) : (obufSet s a b).cfg = s.cfg := rfl
@[simp] theorem obufSet_dims (s : State) (a : Nat) (b : Byte) : (obufSet s a b).dims = s.dims := rfl
@[simp] theorem obufSet_odims (s : State) (a : Nat) (b : Byte) : (obufSet s a b).odims = s.odims := rfl
@[simp] theorem obufSet_instat (s : State) (a : Nat) (b : Byte) : (obufSet s a b).instat = s.instat := rfl
@[simp] theorem obufSet_rawlen (s : State) (a : Nat) (b : Byte) : (obufSet s a b).rawlen = s.rawlen := rfl
@[simp] theorem obufSet_arg (s : State) (a : Nat) (b : Byte) : (obufSet s a b).arg = s.arg := rfl
@[simp] theorem obufSet_status (s : State) (a : Nat) (b : Byte) : (obufSet s a b).status = s.status := rfl
@[simp] theorem obufSet_res (s : State) (a : Nat) (b : Byte) : (obufSet s a b).res = s.res := rfl
@[simp] theorem obufSet_outlen (s : State) (a : Nat) (b : Byte) : (obufSet s a b).outlen = s.outlen := rfl
@[simp] theorem obufSet_l (s : State) (a : Nat) (b : Byte) : (obufSet s a b).l = s.l := rfl
@[simp] theorem obufSet_cur (s : State) (a : Nat) (b : Byte) : (obufSet s a b).cur = s.cur := rfl
@[simp] theorem obufSet_pq (s : State) (a : Nat) (b : Byte) : (obufSet s a b).pq = s.pq := rfl
@[simp] theorem obufSet_waiting (s : State) (a : Nat) (b : Byte) : (obufSet s a b).waiting = s.waiting := rfl
@[simp] theorem obufSet_act (s : State) (a : Nat) (b : Byte) : (obufSet s a b).act = s.act := rfl
@[simp] theorem obufSet_nerr (s : State) (a : Nat) (b : Byte) : (obufSet s a b).nerr = s.nerr := rfl
@[simp] theorem obufSet_earr (s : State) (a : Nat) (b : Byte) : (obufSet s a b).earr = s.earr := rfl
@[simp] theorem obufSet_pal (s : State) (a : Nat) (b : Byte) : (obufSet s a b).pal = s.pal := rfl
@[simp] theorem obufSet_raster (s : State) (a : Nat) (b : Byte) : (obufSet s a b).raster = s.raster := rfl
@[simp] theorem obufSet_rawin (s : State) (a : Nat) (b : Byte) : (obufSet s a b).rawin = s.rawin := rfl
@[simp] theorem obufSet_remap (s : State) (a : Nat) (b : Byte) : (obufSet s a b).remap = s.remap := rfl
@[simp] theorem obufSet_ostream (s : State) (a : Nat) (b : Byte) : (obufSet s a b).ostream = s.ostream := rfl
@[simp] theorem obufSet_params (s : State) (a : Nat) (b : Byte) : (obufSet s a b).params = s.params := rfl
@[simp] theorem obufSet_palq (s : State) (a : Nat) (b : Byte) : (obufSet s a b).palq = s.palq := rfl
@[simp] theorem obufSet_agenda (s : State) (a : Nat) (b : Byte) : (obufSet s a b).agenda = s.agenda := rfl
@[simp] theorem obufSet_collabDefers (s : State) (a : Nat) (b : Byte) : (obufSet s a b).collabDefers = s.collabDefers := rfl
@[simp] theorem obufSet_hostData (s : State) (a : Nat) (b : Byte) : (obufSet s a b).hostData = s.hostData := rfl

/-! ### obufOr -/

@[simp] theorem obufOr_cfg (s : State) (a : Nat) (v : Byte) : (obufOr s a v).cfg = s.cfg := rfl
@[simp] theorem obufOr_dims (s : State) (a : Nat) (v : Byte) : (obufOr s a v).dims = s.dims := rfl
@[simp] theorem obufOr_odims (s : State) (a : Nat) (v : Byte) : (obufOr s a v).odims = s.odims := rfl
@[simp] theorem obufOr_instat (s : State) (a : Nat) (v : Byte) : (obufOr s a v).instat = s.instat := rfl
@[simp] theorem obufOr_rawlen (s : State) (a : Nat) (v : Byte) : (obufOr s a v).rawlen = s.rawlen := rfl
@[simp] theorem obufOr_arg (s : State) (a : Nat) (v : Byte) : (obufOr s a v).arg = s.arg := rfl
@[simp] theorem obufOr_status (s : State) (a : Nat) (v : Byte) : (obufOr s a v).status = s.status := rfl
@[simp] theorem obufOr_res (s : State) (a : Nat) (v : Byte) : (obufOr s a v).res = s.res := rfl
@[simp] theorem obufOr_outlen (s : State) (a : Nat) (v : Byte) : (obufOr s a v).outlen = s.outlen := rfl
@[simp] theorem obufOr_l (s : State) (a : Nat) (v : Byte) : (obufOr s a v).l = s.l := rfl
@[simp] theorem obufOr_cur (s : State) (a : Nat) (v : Byte) : (obufOr s a v).cur = s.cur := rfl
@[simp] theorem obufOr_pq (s : State) (a : Nat) (v : Byte) : (obufOr s a v).pq = s.pq := rfl
@[simp] theorem obufOr_waiting (s : State) (a : Nat) (v : Byte) : (obufOr s a v).waiting = s.waiting := rfl
@[simp] theorem obufOr_act (s : State) (a : Nat) (v : Byte) : (obufOr s a v).act = s.act := rfl
@[simp] theorem obufOr_nerr (s : State) (a : Nat) (v : Byte) : (obufOr s a v).nerr = s.nerr := rfl
@[simp] theorem obufOr_earr (s : State) (a : Nat) (v : Byte) : (obufOr s a v).earr = s.earr := rfl
@[simp] theorem obufOr_pal (s : State) (a : Nat) (v : Byte) : (obufOr s a v).pal = s.pal := rfl
@[simp] theorem obufOr_raster (s : State) (a : Nat) (v : Byte) : (obufOr s a v).raster = s.raster := rfl
@[simp] theorem obufOr_rawin (s : State) (a : Nat) (v : Byte) : (obufOr s a v).rawin = s.rawin := rfl
@[simp] theorem obufOr_remap (s : State) (a : Nat) (v : Byte) : (obufOr s a v).remap = s.remap := rfl
@[simp] theorem obufOr_ostream (s : State) (a : Nat) (v : Byte) : (obufOr s a v).ostream = s.ostream := rfl
@[simp] theorem obufOr_params (s : State) (a : Nat) (v : Byte) : (obufOr s a v).params = s.params := rfl
@[simp] theorem obufOr_palq (s : State) (a : Nat) (v : Byte) : (obufOr s a v).palq = s.palq := rfl
@[simp] theorem obufOr_agenda (s : State) (a : Nat) (v : Byte) : (obufOr s a v).agenda = s.agenda := rfl
@[simp] theorem obufOr_collabDefers (s : State) (a : Nat) (v : Byte) : (obufOr s a v).collabDefers = s.collabDefers := rfl
@[simp] theorem obufOr_hostData (s : State) (a : Nat) (v : Byte) : (obufOr s a v).hostData = s.hostData := rfl

/-! ### packField -/

@[simp] theorem packField_cfg (s : State) (base k : Nat) (v : Byte) : (packField s base k v).cfg = s.cfg := rfl
@[simp] theorem packField_dims (s : State) (base k : Nat) (v : Byte) : (packField s base k v).dims = s.dims := rfl
@[simp] theorem packField_odims (s : State) (base k : Nat) (v : Byte) : (packField s base k v).odims = s.odims := rfl
@[simp] theorem packField_instat (s : State) (base k : Nat) (v : Byte) : (packField s base k v).instat = s.instat := rfl
@[simp] theorem packField_rawlen (s : State) (base k : Nat) (v : Byte) : (packField s base k v).rawlen = s.rawlen := rfl
@[simp] theorem packField_arg (s : State) (base k : Nat) (v : Byte) : (packField s base k v).arg = s.arg := rfl
@[simp] theorem packField_status (s : State) (base k : Nat) (v : Byte) : (packField s base k v).status = s.status := rfl
@[simp] theorem packField_res (s : State) (base k : Nat) (v : Byte) : (packField s base k v).res = s.res := rfl
@[simp] theorem packField_outlen (s : State) (base k : Nat) (v : Byte) : (packField s base k v).outlen = s.outlen := rfl
@[simp] theorem packField_l (s : State) (base k : Nat) (v : Byte) : (packField s base k v).l = s.l := rfl
@[simp] theorem packField_cur (s : State) (base k : Nat) (v : Byte) : (packField s base k v).cur = s.cur := rfl
@[simp] theorem packField_pq (s : State) (base k : Nat) (v : Byte) : (packField s base k v).pq = s.pq := rfl
@[simp] theorem packField_waiting (s : State) (base k : Nat) (v : Byte) : (packField s base k v).waiting = s.waiting := rfl
@[simp] theorem packField_act (s : State) (base k : Nat) (v : Byte) : (packField s base k v).act = s.act := rfl
@[simp] theorem packField_nerr (s : State) (base k : Nat) (v : Byte) : (packField s base k v).nerr = s.nerr := rfl
@[simp] theorem packField_earr (s : State) (base k : Nat) (v : Byte) : (packField s base k v).earr = s.earr := rfl
@[simp] theorem packField_pal (s : State) (base k : Nat) (v : Byte) : (packField s base k v).pal = s.pal := rfl
@[simp] theorem packField_raster (s : State) (base k : Nat) (v : Byte) : (packField s base k v).raster = s.raster := rfl
@[simp] theorem packField_rawin (s : State) (base k : Nat) (v : Byte) : (packField s base k v).rawin = s.rawin := rfl
@[simp] theorem packField_remap (s : State) (base k : Nat) (v : Byte) : (packField s base k v).remap = s.remap := rfl
@[simp] theorem packField_ostream (s : State) (base k : Nat) (v : Byte) : (packField s base k v).ostream = s.ostream := rfl
@[simp] theorem packField_params (s : State) (base k : Nat) (v : Byte) : (packField s base k v).params = s.params := rfl
@[simp] theorem packField_palq (s : State) (base k : Nat) (v : Byte) : (packField s base k v).palq = s.palq := rfl
@[simp] theorem packField_agenda (s : State) (base k : Nat) (v : Byte) : (packField s base k v).agenda = s.agenda := rfl
@[simp] theorem packField_collabDefers (s : State) (base k : Nat) (v : Byte) : (packField s base k v).collabDefers = s.collabDefers := rfl
@[simp] theorem packField_hostData (s : State) (base k : Nat) (v : Byte) : (packField s base k v).hostData = s.hostData := rfl

/-! ### packByte -/

@[simp] theorem packByte_cfg (s : State) (base : Nat) (v : Byte) : (packByte s base v).cfg = s.cfg := rfl
@[simp] theorem packByte_dims (s : State) (base : Nat) (v : Byte) : (packByte s base v).dims = s.dims := rfl
@[simp] theorem packByte_odims (s : State) (base : Nat) (v : Byte) : (packByte s base v).odims = s.odims := rfl
@[simp] theorem packByte_instat (s : State) (base : Nat) (v : Byte) : (packByte s base v).instat = s.instat := rfl
@[simp] theorem packByte_rawlen (s : State) (base : Nat) (v : Byte) : (packByte s base v).rawlen = s.rawlen := rfl
@[simp] theorem packByte_arg (s : State) (base : Nat) (v : Byte) : (packByte s base v).arg = s.arg := rfl
@[simp] theorem packByte_status (s : State) (base : Nat) (v : Byte) : (packByte s base v).status = s.status := rfl
@[simp] theorem packByte_res (s : State) (base : Nat) (v : Byte) : (packByte s base v).res = s.res := rfl
@[simp] theorem packByte_outlen (s : State) (base : Nat) (v : Byte) : (packByte s base v).outlen = s.outlen := rfl
@[simp] theorem packByte_l (s : State) (base : Nat) (v : Byte) : (packByte s base v).l = s.l := rfl
@[simp] theorem packByte_cur (s : State) (base : Nat) (v : Byte) : (packByte s base v).cur = s.cur := rfl
@[simp] theorem packByte_pq (s : State) (base : Nat) (v : Byte) : (packByte s base v).pq = s.pq := rfl
@[simp] theorem packByte_waiting (s : State) (base : Nat) (v : Byte) : (packByte s base v).waiting = s.waiting := rfl
@[simp] theorem packByte_act (s : State) (base : Nat) (v : Byte) : (packByte s base v).act = s.act := rfl
@[simp] theorem packByte_nerr (s : State) (base : Nat) (v : Byte) : (packByte s base v).nerr = s.nerr := rfl
@[simp] theorem packByte_earr (s : State) (base : Nat) (v : Byte) : (packByte s base v).earr = s.earr := rfl
@[simp] theorem packByte_pal (s : State) (base : Nat) (v : Byte) : (packByte s base v).pal = s.pal := rfl
@[simp] theorem packByte_raster (s : State) (base : Nat) (v : Byte) : (packByte s base v).raster = s.raster := rfl
@[simp] theorem packByte_rawin (s : State) (base : Nat) (v : Byte) : (packByte s base v).rawin = s.rawin := rfl
@[simp] theorem packByte_remap (s : State) (base : Nat) (v : Byte) : (packByte s base v).remap = s.remap := rfl
@[simp] theorem packByte_ostream (s : State) (base : Nat) (v : Byte) : (packByte s base v).ostream = s.ostream := rfl
@[simp] theorem packByte_params (s : State) (base : Nat) (v : Byte) : (packByte s base v).params = s.params := rfl
@[simp] theorem packByte_palq (s : State) (base : Nat) (v : Byte) : (packByte s base v).palq = s.palq := rfl
@[simp] theorem packByte_agenda (s : State) (base : Nat) (v : Byte) : (packByte s base v).agenda = s.agenda := rfl
@[simp] theorem packByte_collabDefers (s : State) (base : Nat) (v : Byte) : (packByte s base v).collabDefers = s.collabDefers := rfl
@[simp] theorem packByte_hostData (s : State) (base : Nat) (v : Byte) : (packByte s base v).hostData = s.hostData := rfl

/-! ### freshSub -/

@[simp] theorem freshSub_cfg (s : State) (i : BitVec 2) : (freshSub s i).cfg = s.cfg := rfl
@[simp] theorem freshSub_dims (s : State) (i : BitVec 2) : (freshSub s i).dims = s.dims := rfl
@[simp] theorem freshSub_odims (s : State) (i : BitVec 2) : (freshSub s i).odims = s.odims := rfl
@[simp] theorem freshSub_instat (s : State) (i : BitVec 2) : (freshSub s i).instat = s.instat := rfl
@[simp] theorem freshSub_rawlen (s : State) (i : BitVec 2) : (freshSub s i).rawlen = s.rawlen := rfl
@[simp] theorem freshSub_arg (s : State) (i : BitVec 2) : (freshSub s i).arg = s.arg := rfl
@[simp] theorem freshSub_status (s : State) (i : BitVec 2) : (freshSub s i).status = { s.status with palv := false, actv := false } := rfl
@[simp] theorem freshSub_res (s : State) (i : BitVec 2) : (freshSub s i).res = s.res := rfl
@[simp] theorem freshSub_outlen (s : State) (i : BitVec 2) : (freshSub s i).outlen = s.outlen := rfl
@[simp] theorem freshSub_l (s : State) (i : BitVec 2) : (freshSub s i).l = s.l := rfl
@[simp] theorem freshSub_cur (s : State) (i : BitVec 2) : (freshSub s i).cur = { sub := i, pass := false, y := 0, x := 0 } := rfl
@[simp] theorem freshSub_pq (s : State) (i : BitVec 2) : (freshSub s i).pq = s.pq := rfl
@[simp] theorem freshSub_waiting (s : State) (i : BitVec 2) : (freshSub s i).waiting = s.waiting := rfl
@[simp] theorem freshSub_act (s : State) (i : BitVec 2) : (freshSub s i).act = ⟨0, 0, 0⟩ := rfl
@[simp] theorem freshSub_nerr (s : State) (i : BitVec 2) : (freshSub s i).nerr = ⟨0, 0, 0⟩ := rfl
@[simp] theorem freshSub_earr (s : State) (i : BitVec 2) : (freshSub s i).earr = ⟨zeroEarr s.l.w, zeroEarr s.l.w, zeroEarr s.l.w⟩ := rfl
@[simp] theorem freshSub_pal (s : State) (i : BitVec 2) : (freshSub s i).pal = s.pal := rfl
@[simp] theorem freshSub_raster (s : State) (i : BitVec 2) : (freshSub s i).raster = s.raster := rfl
@[simp] theorem freshSub_rawin (s : State) (i : BitVec 2) : (freshSub s i).rawin = s.rawin := rfl
@[simp] theorem freshSub_remap (s : State) (i : BitVec 2) : (freshSub s i).remap = s.remap := rfl
@[simp] theorem freshSub_obuf (s : State) (i : BitVec 2) : (freshSub s i).obuf = s.obuf := rfl
@[simp] theorem freshSub_ostream (s : State) (i : BitVec 2) : (freshSub s i).ostream = s.ostream := rfl
@[simp] theorem freshSub_params (s : State) (i : BitVec 2) : (freshSub s i).params = s.params := rfl
@[simp] theorem freshSub_palq (s : State) (i : BitVec 2) : (freshSub s i).palq = s.palq := rfl
@[simp] theorem freshSub_agenda (s : State) (i : BitVec 2) : (freshSub s i).agenda = s.agenda := rfl
@[simp] theorem freshSub_collabDefers (s : State) (i : BitVec 2) : (freshSub s i).collabDefers = s.collabDefers := rfl
@[simp] theorem freshSub_hostData (s : State) (i : BitVec 2) : (freshSub s i).hostData = s.hostData := rfl

/-! ### finishEmpty -/

@[simp] theorem finishEmpty_cfg (s : State) (p : Bool) : (finishEmpty s p).cfg = s.cfg := rfl
@[simp] theorem finishEmpty_dims (s : State) (p : Bool) : (finishEmpty s p).dims = s.dims := rfl
@[simp] theorem finishEmpty_odims (s : State) (p : Bool) : (finishEmpty s p).odims = s.odims := rfl
@[simp] theorem finishEmpty_instat (s : State) (p : Bool) : (finishEmpty s p).instat = s.instat := rfl
@[simp] theorem finishEmpty_rawlen (s : State) (p : Bool) : (finishEmpty s p).rawlen = s.rawlen := rfl
@[simp] theorem finishEmpty_arg (s : State) (p : Bool) : (finishEmpty s p).arg = s.arg := rfl
@[simp] theorem finishEmpty_status (s : State) (p : Bool) : (finishEmpty s p).status = s.status.complete s.cur.sub := rfl
@[simp] theorem finishEmpty_res (s : State) (p : Bool) : (finishEmpty s p).res = s.res := rfl
@[simp] theorem finishEmpty_outlen (s : State) (p : Bool) : (finishEmpty s p).outlen = s.outlen := rfl
@[simp] theorem finishEmpty_l (s : State) (p : Bool) : (finishEmpty s p).l = s.l := rfl
@[simp] theorem finishEmpty_cur (s : State) (p : Bool) : (finishEmpty s p).cur = { s.cur with y := s.l.h, pass := p } := rfl
@[simp] theorem finishEmpty_pq (s : State) (p : Bool) : (finishEmpty s p).pq = s.pq := rfl
@[simp] theorem finishEmpty_waiting (s : State) (p : Bool) : (finishEmpty s p).waiting = s.waiting := rfl
@[simp] theorem finishEmpty_act (s : State) (p : Bool) : (finishEmpty s p).act = s.act := rfl
@[simp] theorem finishEmpty_nerr (s : State) (p : Bool) : (finishEmpty s p).nerr = s.nerr := rfl
@[simp] theorem finishEmpty_earr (s : State) (p : Bool) : (finishEmpty s p).earr = s.earr := rfl
@[simp] theorem finishEmpty_pal (s : State) (p : Bool) : (finishEmpty s p).pal = s.pal := rfl
@[simp] theorem finishEmpty_raster (s : State) (p : Bool) : (finishEmpty s p).raster = s.raster := rfl
@[simp] theorem finishEmpty_rawin (s : State) (p : Bool) : (finishEmpty s p).rawin = s.rawin := rfl
@[simp] theorem finishEmpty_remap (s : State) (p : Bool) : (finishEmpty s p).remap = s.remap := rfl
@[simp] theorem finishEmpty_obuf (s : State) (p : Bool) : (finishEmpty s p).obuf = s.obuf := rfl
@[simp] theorem finishEmpty_ostream (s : State) (p : Bool) : (finishEmpty s p).ostream = s.ostream := rfl
@[simp] theorem finishEmpty_params (s : State) (p : Bool) : (finishEmpty s p).params = s.params := rfl
@[simp] theorem finishEmpty_palq (s : State) (p : Bool) : (finishEmpty s p).palq = s.palq := rfl
@[simp] theorem finishEmpty_agenda (s : State) (p : Bool) : (finishEmpty s p).agenda = s.agenda := rfl
@[simp] theorem finishEmpty_collabDefers (s : State) (p : Bool) : (finishEmpty s p).collabDefers = s.collabDefers := rfl
@[simp] theorem finishEmpty_hostData (s : State) (p : Bool) : (finishEmpty s p).hostData = s.hostData := rfl

/-! ### startRun -/

@[simp] theorem startRun_cfg (s : State) : (startRun s).cfg = s.cfg := rfl
@[simp] theorem startRun_dims (s : State) : (startRun s).dims = s.dims := rfl
@[simp] theorem startRun_odims (s : State) : (startRun s).odims = s.odims := rfl
@[simp] theorem startRun_instat (s : State) : (startRun s).instat = s.instat := rfl
@[simp] theorem startRun_rawlen (s : State) : (startRun s).rawlen = s.rawlen := rfl
@[simp] theorem startRun_arg (s : State) : (startRun s).arg = s.arg := rfl
@[simp] theorem startRun_status (s : State) : (startRun s).status = { s.status with busy := true } := rfl
@[simp] theorem startRun_res (s : State) : (startRun s).res = s.res := rfl
@[simp] theorem startRun_outlen (s : State) : (startRun s).outlen = s.outlen := rfl
@[simp] theorem startRun_l (s : State) : (startRun s).l = s.l := rfl
@[simp] theorem startRun_cur (s : State) : (startRun s).cur = s.cur := rfl
@[simp] theorem startRun_pq (s : State) : (startRun s).pq = (prog s.l).map encode := rfl
@[simp] theorem startRun_waiting (s : State) : (startRun s).waiting = s.waiting := rfl
@[simp] theorem startRun_act (s : State) : (startRun s).act = s.act := rfl
@[simp] theorem startRun_nerr (s : State) : (startRun s).nerr = s.nerr := rfl
@[simp] theorem startRun_earr (s : State) : (startRun s).earr = s.earr := rfl
@[simp] theorem startRun_pal (s : State) : (startRun s).pal = s.pal := rfl
@[simp] theorem startRun_raster (s : State) : (startRun s).raster = s.raster := rfl
@[simp] theorem startRun_rawin (s : State) : (startRun s).rawin = s.rawin := rfl
@[simp] theorem startRun_remap (s : State) : (startRun s).remap = s.remap := rfl
@[simp] theorem startRun_obuf (s : State) : (startRun s).obuf = s.obuf := rfl
@[simp] theorem startRun_ostream (s : State) : (startRun s).ostream = s.ostream := rfl
@[simp] theorem startRun_params (s : State) : (startRun s).params = s.params := rfl
@[simp] theorem startRun_palq (s : State) : (startRun s).palq = s.palq := rfl
@[simp] theorem startRun_agenda (s : State) : (startRun s).agenda = s.agenda := rfl
@[simp] theorem startRun_collabDefers (s : State) : (startRun s).collabDefers = s.collabDefers := rfl
@[simp] theorem startRun_hostData (s : State) : (startRun s).hostData = s.hostData := rfl

/-! ### setArtifact -/

@[simp] theorem setArtifact_cfg (s : State) (art : List Byte) : (setArtifact s art).cfg = s.cfg := rfl
@[simp] theorem setArtifact_dims (s : State) (art : List Byte) : (setArtifact s art).dims = s.dims := rfl
@[simp] theorem setArtifact_odims (s : State) (art : List Byte) : (setArtifact s art).odims = s.odims := rfl
@[simp] theorem setArtifact_instat (s : State) (art : List Byte) : (setArtifact s art).instat = s.instat := rfl
@[simp] theorem setArtifact_rawlen (s : State) (art : List Byte) : (setArtifact s art).rawlen = s.rawlen := rfl
@[simp] theorem setArtifact_arg (s : State) (art : List Byte) : (setArtifact s art).arg = s.arg := rfl
@[simp] theorem setArtifact_status (s : State) (art : List Byte) : (setArtifact s art).status = { s.status with done := true } := rfl
@[simp] theorem setArtifact_res (s : State) (art : List Byte) : (setArtifact s art).res = s.res := rfl
@[simp] theorem setArtifact_outlen (s : State) (art : List Byte) : (setArtifact s art).outlen = outlenOf art.length := rfl
@[simp] theorem setArtifact_l (s : State) (art : List Byte) : (setArtifact s art).l = s.l := rfl
@[simp] theorem setArtifact_cur (s : State) (art : List Byte) : (setArtifact s art).cur = s.cur := rfl
@[simp] theorem setArtifact_pq (s : State) (art : List Byte) : (setArtifact s art).pq = s.pq := rfl
@[simp] theorem setArtifact_waiting (s : State) (art : List Byte) : (setArtifact s art).waiting = s.waiting := rfl
@[simp] theorem setArtifact_act (s : State) (art : List Byte) : (setArtifact s art).act = s.act := rfl
@[simp] theorem setArtifact_nerr (s : State) (art : List Byte) : (setArtifact s art).nerr = s.nerr := rfl
@[simp] theorem setArtifact_earr (s : State) (art : List Byte) : (setArtifact s art).earr = s.earr := rfl
@[simp] theorem setArtifact_pal (s : State) (art : List Byte) : (setArtifact s art).pal = s.pal := rfl
@[simp] theorem setArtifact_raster (s : State) (art : List Byte) : (setArtifact s art).raster = s.raster := rfl
@[simp] theorem setArtifact_rawin (s : State) (art : List Byte) : (setArtifact s art).rawin = s.rawin := rfl
@[simp] theorem setArtifact_remap (s : State) (art : List Byte) : (setArtifact s art).remap = s.remap := rfl
@[simp] theorem setArtifact_obuf (s : State) (art : List Byte) : (setArtifact s art).obuf = s.obuf := rfl
@[simp] theorem setArtifact_ostream (s : State) (art : List Byte) : (setArtifact s art).ostream = art := rfl
@[simp] theorem setArtifact_params (s : State) (art : List Byte) : (setArtifact s art).params = s.params := rfl
@[simp] theorem setArtifact_palq (s : State) (art : List Byte) : (setArtifact s art).palq = s.palq := rfl
@[simp] theorem setArtifact_agenda (s : State) (art : List Byte) : (setArtifact s art).agenda = s.agenda := rfl
@[simp] theorem setArtifact_collabDefers (s : State) (art : List Byte) : (setArtifact s art).collabDefers = s.collabDefers := rfl
@[simp] theorem setArtifact_hostData (s : State) (art : List Byte) : (setArtifact s art).hostData = s.hostData := rfl

/-! ### quantizePixel -/

@[simp] theorem quantizePixel_cfg (s : State) (e : Encoder) (d : Rgb Nat) (smp : Rgb Byte) : (quantizePixel s e d smp).cfg = s.cfg := rfl
@[simp] theorem quantizePixel_dims (s : State) (e : Encoder) (d : Rgb Nat) (smp : Rgb Byte) : (quantizePixel s e d smp).dims = s.dims := rfl
@[simp] theorem quantizePixel_odims (s : State) (e : Encoder) (d : Rgb Nat) (smp : Rgb Byte) : (quantizePixel s e d smp).odims = s.odims := rfl
@[simp] theorem quantizePixel_instat (s : State) (e : Encoder) (d : Rgb Nat) (smp : Rgb Byte) : (quantizePixel s e d smp).instat = s.instat := rfl
@[simp] theorem quantizePixel_rawlen (s : State) (e : Encoder) (d : Rgb Nat) (smp : Rgb Byte) : (quantizePixel s e d smp).rawlen = s.rawlen := rfl
@[simp] theorem quantizePixel_arg (s : State) (e : Encoder) (d : Rgb Nat) (smp : Rgb Byte) : (quantizePixel s e d smp).arg = s.arg := rfl
@[simp] theorem quantizePixel_status (s : State) (e : Encoder) (d : Rgb Nat) (smp : Rgb Byte) : (quantizePixel s e d smp).status = { s.status with actv := true } := rfl
@[simp] theorem quantizePixel_res (s : State) (e : Encoder) (d : Rgb Nat) (smp : Rgb Byte) : (quantizePixel s e d smp).res = s.res := rfl
@[simp] theorem quantizePixel_outlen (s : State) (e : Encoder) (d : Rgb Nat) (smp : Rgb Byte) : (quantizePixel s e d smp).outlen = s.outlen := rfl
@[simp] theorem quantizePixel_l (s : State) (e : Encoder) (d : Rgb Nat) (smp : Rgb Byte) : (quantizePixel s e d smp).l = s.l := rfl
@[simp] theorem quantizePixel_cur (s : State) (e : Encoder) (d : Rgb Nat) (smp : Rgb Byte) : (quantizePixel s e d smp).cur = s.cur := rfl
@[simp] theorem quantizePixel_pq (s : State) (e : Encoder) (d : Rgb Nat) (smp : Rgb Byte) : (quantizePixel s e d smp).pq = s.pq := rfl
@[simp] theorem quantizePixel_waiting (s : State) (e : Encoder) (d : Rgb Nat) (smp : Rgb Byte) : (quantizePixel s e d smp).waiting = s.waiting := rfl
@[simp] theorem quantizePixel_pal (s : State) (e : Encoder) (d : Rgb Nat) (smp : Rgb Byte) : (quantizePixel s e d smp).pal = s.pal := rfl
@[simp] theorem quantizePixel_raster (s : State) (e : Encoder) (d : Rgb Nat) (smp : Rgb Byte) : (quantizePixel s e d smp).raster = s.raster := rfl
@[simp] theorem quantizePixel_rawin (s : State) (e : Encoder) (d : Rgb Nat) (smp : Rgb Byte) : (quantizePixel s e d smp).rawin = s.rawin := rfl
@[simp] theorem quantizePixel_remap (s : State) (e : Encoder) (d : Rgb Nat) (smp : Rgb Byte) : (quantizePixel s e d smp).remap = s.remap := rfl
@[simp] theorem quantizePixel_obuf (s : State) (e : Encoder) (d : Rgb Nat) (smp : Rgb Byte) : (quantizePixel s e d smp).obuf = s.obuf := rfl
@[simp] theorem quantizePixel_ostream (s : State) (e : Encoder) (d : Rgb Nat) (smp : Rgb Byte) : (quantizePixel s e d smp).ostream = s.ostream := rfl
@[simp] theorem quantizePixel_params (s : State) (e : Encoder) (d : Rgb Nat) (smp : Rgb Byte) : (quantizePixel s e d smp).params = s.params := rfl
@[simp] theorem quantizePixel_palq (s : State) (e : Encoder) (d : Rgb Nat) (smp : Rgb Byte) : (quantizePixel s e d smp).palq = s.palq := rfl
@[simp] theorem quantizePixel_agenda (s : State) (e : Encoder) (d : Rgb Nat) (smp : Rgb Byte) : (quantizePixel s e d smp).agenda = s.agenda := rfl
@[simp] theorem quantizePixel_collabDefers (s : State) (e : Encoder) (d : Rgb Nat) (smp : Rgb Byte) : (quantizePixel s e d smp).collabDefers = s.collabDefers := rfl
@[simp] theorem quantizePixel_hostData (s : State) (e : Encoder) (d : Rgb Nat) (smp : Rgb Byte) : (quantizePixel s e d smp).hostData = s.hostData := rfl

/-! ### advance -/

@[simp] theorem advance_cfg (s : State) : (advance s).cfg = s.cfg := by
  simp only [advance]
  split
  · split <;> rfl
  · rfl

@[simp] theorem advance_dims (s : State) : (advance s).dims = s.dims := by
  simp only [advance]
  split
  · split <;> rfl
  · rfl

@[simp] theorem advance_odims (s : State) : (advance s).odims = s.odims := by
  simp only [advance]
  split
  · split <;> rfl
  · rfl

@[simp] theorem advance_instat (s : State) : (advance s).instat = s.instat := by
  simp only [advance]
  split
  · split <;> rfl
  · rfl

@[simp] theorem advance_rawlen (s : State) : (advance s).rawlen = s.rawlen := by
  simp only [advance]
  split
  · split <;> rfl
  · rfl

@[simp] theorem advance_arg (s : State) : (advance s).arg = s.arg := by
  simp only [advance]
  split
  · split <;> rfl
  · rfl

@[simp] theorem advance_res (s : State) : (advance s).res = s.res := by
  simp only [advance]
  split
  · split <;> rfl
  · rfl

@[simp] theorem advance_outlen (s : State) : (advance s).outlen = s.outlen := by
  simp only [advance]
  split
  · split <;> rfl
  · rfl

@[simp] theorem advance_l (s : State) : (advance s).l = s.l := by
  simp only [advance]
  split
  · split <;> rfl
  · rfl

@[simp] theorem advance_pq (s : State) : (advance s).pq = s.pq := by
  simp only [advance]
  split
  · split <;> rfl
  · rfl

@[simp] theorem advance_waiting (s : State) : (advance s).waiting = s.waiting := by
  simp only [advance]
  split
  · split <;> rfl
  · rfl

@[simp] theorem advance_act (s : State) : (advance s).act = s.act := by
  simp only [advance]
  split
  · split <;> rfl
  · rfl

@[simp] theorem advance_nerr (s : State) : (advance s).nerr = s.nerr := by
  simp only [advance]
  split
  · split <;> rfl
  · rfl

@[simp] theorem advance_earr (s : State) : (advance s).earr = s.earr := by
  simp only [advance]
  split
  · split <;> rfl
  · rfl

@[simp] theorem advance_pal (s : State) : (advance s).pal = s.pal := by
  simp only [advance]
  split
  · split <;> rfl
  · rfl

@[simp] theorem advance_raster (s : State) : (advance s).raster = s.raster := by
  simp only [advance]
  split
  · split <;> rfl
  · rfl

@[simp] theorem advance_rawin (s : State) : (advance s).rawin = s.rawin := by
  simp only [advance]
  split
  · split <;> rfl
  · rfl

@[simp] theorem advance_remap (s : State) : (advance s).remap = s.remap := by
  simp only [advance]
  split
  · split <;> rfl
  · rfl

@[simp] theorem advance_obuf (s : State) : (advance s).obuf = s.obuf := by
  simp only [advance]
  split
  · split <;> rfl
  · rfl

@[simp] theorem advance_ostream (s : State) : (advance s).ostream = s.ostream := by
  simp only [advance]
  split
  · split <;> rfl
  · rfl

@[simp] theorem advance_params (s : State) : (advance s).params = s.params := by
  simp only [advance]
  split
  · split <;> rfl
  · rfl

@[simp] theorem advance_palq (s : State) : (advance s).palq = s.palq := by
  simp only [advance]
  split
  · split <;> rfl
  · rfl

@[simp] theorem advance_agenda (s : State) : (advance s).agenda = s.agenda := by
  simp only [advance]
  split
  · split <;> rfl
  · rfl

@[simp] theorem advance_collabDefers (s : State) : (advance s).collabDefers = s.collabDefers := by
  simp only [advance]
  split
  · split <;> rfl
  · rfl

@[simp] theorem advance_hostData (s : State) : (advance s).hostData = s.hostData := by
  simp only [advance]
  split
  · split <;> rfl
  · rfl

/-! ### afterPixel -/

@[simp] theorem afterPixel_cfg (e : Encoder) (s : State) : (afterPixel e s).cfg = s.cfg := by
  simp only [afterPixel]
  split <;> simp

@[simp] theorem afterPixel_dims (e : Encoder) (s : State) : (afterPixel e s).dims = s.dims := by
  simp only [afterPixel]
  split <;> simp

@[simp] theorem afterPixel_odims (e : Encoder) (s : State) : (afterPixel e s).odims = s.odims := by
  simp only [afterPixel]
  split <;> simp

@[simp] theorem afterPixel_instat (e : Encoder) (s : State) : (afterPixel e s).instat = s.instat := by
  simp only [afterPixel]
  split <;> simp

@[simp] theorem afterPixel_rawlen (e : Encoder) (s : State) : (afterPixel e s).rawlen = s.rawlen := by
  simp only [afterPixel]
  split <;> simp

@[simp] theorem afterPixel_arg (e : Encoder) (s : State) : (afterPixel e s).arg = s.arg := by
  simp only [afterPixel]
  split <;> simp

@[simp] theorem afterPixel_res (e : Encoder) (s : State) : (afterPixel e s).res = s.res := by
  simp only [afterPixel]
  split <;> simp

@[simp] theorem afterPixel_outlen (e : Encoder) (s : State) : (afterPixel e s).outlen = s.outlen := by
  simp only [afterPixel]
  split <;> simp

@[simp] theorem afterPixel_l (e : Encoder) (s : State) : (afterPixel e s).l = s.l := by
  simp only [afterPixel]
  split <;> simp

@[simp] theorem afterPixel_pq (e : Encoder) (s : State) : (afterPixel e s).pq = s.pq := by
  simp only [afterPixel]
  split <;> simp

@[simp] theorem afterPixel_waiting (e : Encoder) (s : State) : (afterPixel e s).waiting = s.waiting := by
  simp only [afterPixel]
  split <;> simp

@[simp] theorem afterPixel_act (e : Encoder) (s : State) : (afterPixel e s).act = s.act := by
  simp only [afterPixel]
  split <;> simp

@[simp] theorem afterPixel_nerr (e : Encoder) (s : State) : (afterPixel e s).nerr = s.nerr := by
  simp only [afterPixel]
  split <;> simp

@[simp] theorem afterPixel_earr (e : Encoder) (s : State) : (afterPixel e s).earr = s.earr := by
  simp only [afterPixel]
  split <;> simp

@[simp] theorem afterPixel_pal (e : Encoder) (s : State) : (afterPixel e s).pal = s.pal := by
  simp only [afterPixel]
  split <;> simp

@[simp] theorem afterPixel_raster (e : Encoder) (s : State) : (afterPixel e s).raster = s.raster := by
  simp only [afterPixel]
  split <;> simp

@[simp] theorem afterPixel_rawin (e : Encoder) (s : State) : (afterPixel e s).rawin = s.rawin := by
  simp only [afterPixel]
  split <;> simp

@[simp] theorem afterPixel_remap (e : Encoder) (s : State) : (afterPixel e s).remap = s.remap := by
  simp only [afterPixel]
  split <;> simp

@[simp] theorem afterPixel_obuf (e : Encoder) (s : State) : (afterPixel e s).obuf = s.obuf := by
  simp only [afterPixel]
  split <;> simp

@[simp] theorem afterPixel_ostream (e : Encoder) (s : State) : (afterPixel e s).ostream = s.ostream := by
  simp only [afterPixel]
  split <;> simp

@[simp] theorem afterPixel_params (e : Encoder) (s : State) : (afterPixel e s).params = s.params := by
  simp only [afterPixel]
  split <;> simp

@[simp] theorem afterPixel_palq (e : Encoder) (s : State) : (afterPixel e s).palq = s.palq := by
  simp only [afterPixel]
  split <;> simp

@[simp] theorem afterPixel_agenda (e : Encoder) (s : State) : (afterPixel e s).agenda = s.agenda := by
  simp only [afterPixel]
  split <;> simp

@[simp] theorem afterPixel_collabDefers (e : Encoder) (s : State) : (afterPixel e s).collabDefers = s.collabDefers := by
  simp only [afterPixel]
  split <;> simp

@[simp] theorem afterPixel_hostData (e : Encoder) (s : State) : (afterPixel e s).hostData = s.hostData := by
  simp only [afterPixel]
  split <;> simp

/-! ### dropBusy -/

@[simp] theorem dropBusy_cfg (s : State) : (dropBusy s).cfg = s.cfg := by
  simp only [dropBusy]
  split <;> rfl

@[simp] theorem dropBusy_dims (s : State) : (dropBusy s).dims = s.dims := by
  simp only [dropBusy]
  split <;> rfl

@[simp] theorem dropBusy_odims (s : State) : (dropBusy s).odims = s.odims := by
  simp only [dropBusy]
  split <;> rfl

@[simp] theorem dropBusy_instat (s : State) : (dropBusy s).instat = s.instat := by
  simp only [dropBusy]
  split <;> rfl

@[simp] theorem dropBusy_rawlen (s : State) : (dropBusy s).rawlen = s.rawlen := by
  simp only [dropBusy]
  split <;> rfl

@[simp] theorem dropBusy_arg (s : State) : (dropBusy s).arg = s.arg := by
  simp only [dropBusy]
  split <;> rfl

@[simp] theorem dropBusy_res (s : State) : (dropBusy s).res = s.res := by
  simp only [dropBusy]
  split <;> rfl

@[simp] theorem dropBusy_outlen (s : State) : (dropBusy s).outlen = s.outlen := by
  simp only [dropBusy]
  split <;> rfl

@[simp] theorem dropBusy_l (s : State) : (dropBusy s).l = s.l := by
  simp only [dropBusy]
  split <;> rfl

@[simp] theorem dropBusy_cur (s : State) : (dropBusy s).cur = s.cur := by
  simp only [dropBusy]
  split <;> rfl

@[simp] theorem dropBusy_pq (s : State) : (dropBusy s).pq = s.pq := by
  simp only [dropBusy]
  split <;> rfl

@[simp] theorem dropBusy_waiting (s : State) : (dropBusy s).waiting = s.waiting := by
  simp only [dropBusy]
  split <;> rfl

@[simp] theorem dropBusy_act (s : State) : (dropBusy s).act = s.act := by
  simp only [dropBusy]
  split <;> rfl

@[simp] theorem dropBusy_nerr (s : State) : (dropBusy s).nerr = s.nerr := by
  simp only [dropBusy]
  split <;> rfl

@[simp] theorem dropBusy_earr (s : State) : (dropBusy s).earr = s.earr := by
  simp only [dropBusy]
  split <;> rfl

@[simp] theorem dropBusy_pal (s : State) : (dropBusy s).pal = s.pal := by
  simp only [dropBusy]
  split <;> rfl

@[simp] theorem dropBusy_raster (s : State) : (dropBusy s).raster = s.raster := by
  simp only [dropBusy]
  split <;> rfl

@[simp] theorem dropBusy_rawin (s : State) : (dropBusy s).rawin = s.rawin := by
  simp only [dropBusy]
  split <;> rfl

@[simp] theorem dropBusy_remap (s : State) : (dropBusy s).remap = s.remap := by
  simp only [dropBusy]
  split <;> rfl

@[simp] theorem dropBusy_obuf (s : State) : (dropBusy s).obuf = s.obuf := by
  simp only [dropBusy]
  split <;> rfl

@[simp] theorem dropBusy_ostream (s : State) : (dropBusy s).ostream = s.ostream := by
  simp only [dropBusy]
  split <;> rfl

@[simp] theorem dropBusy_params (s : State) : (dropBusy s).params = s.params := by
  simp only [dropBusy]
  split <;> rfl

@[simp] theorem dropBusy_palq (s : State) : (dropBusy s).palq = s.palq := by
  simp only [dropBusy]
  split <;> rfl

@[simp] theorem dropBusy_agenda (s : State) : (dropBusy s).agenda = s.agenda := by
  simp only [dropBusy]
  split <;> rfl

@[simp] theorem dropBusy_collabDefers (s : State) : (dropBusy s).collabDefers = s.collabDefers := by
  simp only [dropBusy]
  split <;> rfl

@[simp] theorem dropBusy_hostData (s : State) : (dropBusy s).hostData = s.hostData := by
  simp only [dropBusy]
  split <;> rfl

/-! ### startImage -/

@[simp] theorem startImage_cfg (l : Latched) (w : Bool) (s : State) : (startImage l w s).cfg = s.cfg := by
  simp only [startImage]
  split <;> rfl

@[simp] theorem startImage_dims (l : Latched) (w : Bool) (s : State) : (startImage l w s).dims = s.dims := by
  simp only [startImage]
  split <;> rfl

@[simp] theorem startImage_odims (l : Latched) (w : Bool) (s : State) : (startImage l w s).odims = s.odims := by
  simp only [startImage]
  split <;> rfl

@[simp] theorem startImage_instat (l : Latched) (w : Bool) (s : State) : (startImage l w s).instat = s.instat := by
  simp only [startImage]
  split <;> rfl

@[simp] theorem startImage_rawlen (l : Latched) (w : Bool) (s : State) : (startImage l w s).rawlen = s.rawlen := by
  simp only [startImage]
  split <;> rfl

@[simp] theorem startImage_arg (l : Latched) (w : Bool) (s : State) : (startImage l w s).arg = s.arg := by
  simp only [startImage]
  split <;> rfl

@[simp] theorem startImage_res (l : Latched) (w : Bool) (s : State) : (startImage l w s).res = s.res := by
  simp only [startImage]
  split <;> rfl

@[simp] theorem startImage_outlen (l : Latched) (w : Bool) (s : State) : (startImage l w s).outlen = s.outlen := by
  simp only [startImage]
  split <;> rfl

@[simp] theorem startImage_pq (l : Latched) (w : Bool) (s : State) : (startImage l w s).pq = s.pq := by
  simp only [startImage]
  split <;> rfl

@[simp] theorem startImage_waiting (l : Latched) (w : Bool) (s : State) : (startImage l w s).waiting = s.waiting := by
  simp only [startImage]
  split <;> rfl

@[simp] theorem startImage_pal (l : Latched) (w : Bool) (s : State) : (startImage l w s).pal = s.pal := by
  simp only [startImage]
  split <;> rfl

@[simp] theorem startImage_raster (l : Latched) (w : Bool) (s : State) : (startImage l w s).raster = s.raster := by
  simp only [startImage]
  split <;> rfl

@[simp] theorem startImage_rawin (l : Latched) (w : Bool) (s : State) : (startImage l w s).rawin = s.rawin := by
  simp only [startImage]
  split <;> rfl

@[simp] theorem startImage_remap (l : Latched) (w : Bool) (s : State) : (startImage l w s).remap = s.remap := by
  simp only [startImage]
  split <;> rfl

@[simp] theorem startImage_ostream (l : Latched) (w : Bool) (s : State) : (startImage l w s).ostream = s.ostream := by
  simp only [startImage]
  split <;> rfl

@[simp] theorem startImage_params (l : Latched) (w : Bool) (s : State) : (startImage l w s).params = s.params := by
  simp only [startImage]
  split <;> rfl

@[simp] theorem startImage_palq (l : Latched) (w : Bool) (s : State) : (startImage l w s).palq = s.palq := by
  simp only [startImage]
  split <;> rfl

@[simp] theorem startImage_agenda (l : Latched) (w : Bool) (s : State) : (startImage l w s).agenda = s.agenda := by
  simp only [startImage]
  split <;> rfl

@[simp] theorem startImage_collabDefers (l : Latched) (w : Bool) (s : State) : (startImage l w s).collabDefers = s.collabDefers := by
  simp only [startImage]
  split <;> rfl

@[simp] theorem startImage_hostData (l : Latched) (w : Bool) (s : State) : (startImage l w s).hostData = s.hostData := by
  simp only [startImage]
  split <;> rfl

@[simp] theorem startImage_l (l : Latched) (w : Bool) (s : State) : (startImage l w s).l = l := by
  simp only [startImage]
  split <;> rfl

@[simp] theorem startImage_obuf (l : Latched) (w : Bool) (s : State) : (startImage l w s).obuf = Obufs.empty := by
  simp only [startImage]
  split <;> rfl

@[simp] theorem startImage_act (l : Latched) (w : Bool) (s : State) : (startImage l w s).act = ⟨0, 0, 0⟩ := by
  simp only [startImage]
  split <;> rfl

@[simp] theorem startImage_nerr (l : Latched) (w : Bool) (s : State) : (startImage l w s).nerr = ⟨0, 0, 0⟩ := by
  simp only [startImage]
  split <;> rfl

@[simp] theorem startImage_earr (l : Latched) (w : Bool) (s : State) : (startImage l w s).earr = ⟨zeroEarr l.w, zeroEarr l.w, zeroEarr l.w⟩ := by
  simp only [startImage]
  split <;> rfl

/-! ### The status updates -/

@[simp] theorem Status.enterError_busy (t : Status) (c : ErrCode) : (t.enterError c).busy = false := rfl
@[simp] theorem Status.enterError_done (t : Status) (c : ErrCode) : (t.enterError c).done = false := rfl
@[simp] theorem Status.enterError_err (t : Status) (c : ErrCode) : (t.enterError c).err = true := rfl
@[simp] theorem Status.enterError_warn (t : Status) (c : ErrCode) : (t.enterError c).warn = t.warn := rfl
@[simp] theorem Status.enterError_palv (t : Status) (c : ErrCode) : (t.enterError c).palv = t.palv := rfl
@[simp] theorem Status.enterError_actv (t : Status) (c : ErrCode) : (t.enterError c).actv = t.actv := rfl
@[simp] theorem Status.enterError_ecode (t : Status) (c : ErrCode) : (t.enterError c).ecode = c := rfl
@[simp] theorem Status.enterError_subdone (t : Status) (c : ErrCode) : (t.enterError c).subdone = t.subdone := rfl
@[simp] theorem Status.enterError_initOk (t : Status) (c : ErrCode) : (t.enterError c).initOk = false := rfl

@[simp] theorem Status.clearOutcome_busy (t : Status) : (t.clearOutcome).busy = t.busy := rfl
@[simp] theorem Status.clearOutcome_done (t : Status) : (t.clearOutcome).done = false := rfl
@[simp] theorem Status.clearOutcome_err (t : Status) : (t.clearOutcome).err = false := rfl
@[simp] theorem Status.clearOutcome_warn (t : Status) : (t.clearOutcome).warn = false := rfl
@[simp] theorem Status.clearOutcome_palv (t : Status) : (t.clearOutcome).palv = t.palv := rfl
@[simp] theorem Status.clearOutcome_actv (t : Status) : (t.clearOutcome).actv = t.actv := rfl
@[simp] theorem Status.clearOutcome_ecode (t : Status) : (t.clearOutcome).ecode = .none := rfl
@[simp] theorem Status.clearOutcome_subdone (t : Status) : (t.clearOutcome).subdone = t.subdone := rfl
@[simp] theorem Status.clearOutcome_initOk (t : Status) : (t.clearOutcome).initOk = false := rfl

@[simp] theorem Status.complete_busy (t : Status) (i : BitVec 2) : (t.complete i).busy = t.busy := rfl
@[simp] theorem Status.complete_done (t : Status) (i : BitVec 2) : (t.complete i).done = t.done := rfl
@[simp] theorem Status.complete_err (t : Status) (i : BitVec 2) : (t.complete i).err = t.err := rfl
@[simp] theorem Status.complete_warn (t : Status) (i : BitVec 2) : (t.complete i).warn = t.warn := rfl
@[simp] theorem Status.complete_palv (t : Status) (i : BitVec 2) : (t.complete i).palv = t.palv := rfl
@[simp] theorem Status.complete_actv (t : Status) (i : BitVec 2) : (t.complete i).actv = t.actv := rfl
@[simp] theorem Status.complete_ecode (t : Status) (i : BitVec 2) : (t.complete i).ecode = t.ecode := rfl
@[simp] theorem Status.complete_subdone (t : Status) (i : BitVec 2) : (t.complete i).subdone = t.subdone ||| (1#4 <<< i.toNat) := rfl
@[simp] theorem Status.complete_initOk (t : Status) (i : BitVec 2) : (t.complete i).initOk = t.initOk := rfl

/-- SUBDONE after complete(i): set for i, unchanged for the others (44 R179). -/
theorem Status.subDone_complete (t : Status) (i j : BitVec 2) :
    (t.complete i).subDone j = (decide (j = i) || t.subDone j) := by
  simp only [Status.subDone, Status.complete]
  generalize t.subdone = d
  revert d i j
  decide

/-! ### The cursor advance (44 R178) -/

@[simp] theorem Cursor.nextXY_sub (c : Cursor) (l : Latched) : (c.nextXY l).sub = c.sub := by
  simp only [Cursor.nextXY]
  split <;> rfl

@[simp] theorem Cursor.nextXY_pass (c : Cursor) (l : Latched) : (c.nextXY l).pass = c.pass := by
  simp only [Cursor.nextXY]
  split <;> rfl

/-- The advance writes the cursor and may set one SUBDONE bit: three cases. -/
theorem advance_cases (s : State) :
    ((s.cur.nextXY s.l).y ≠ s.l.h ∧ advance s = { s with cur := s.cur.nextXY s.l }) ∨
    ((s.cur.nextXY s.l).y = s.l.h ∧ s.cur.pass.toNat + 1 < nPass s.l.fmt ∧
      advance s = { s with cur := { s.cur.nextXY s.l with pass := true, y := 0 } }) ∨
    ((s.cur.nextXY s.l).y = s.l.h ∧ ¬ s.cur.pass.toNat + 1 < nPass s.l.fmt ∧
      advance s = { s with cur := s.cur.nextXY s.l, status := s.status.complete s.cur.sub }) := by
  simp only [advance]
  split
  · split
    · rename_i h1 h2
      exact .inr (.inl ⟨h1, by simpa using h2, rfl⟩)
    · rename_i h1 h2
      exact .inr (.inr ⟨h1, by simpa using h2, by simp [complete]⟩)
  · rename_i h1
    exact .inl ⟨h1, rfl⟩

end Sys2Proof.Machine
end

