-- ==== Sys2Proof/Laws/Ops.lean ====
section
/-! SUPPORT. One lemma for each shared operation that says once everything it can do. -/

namespace Sys2Proof.Machine

/-! ### Sequencing of checks -/

@[simp] theorem bind_ok {α β : Type} (a : α) (f : α → Except Stop β) : (Except.ok a >>= f) = f a := rfl

@[simp] theorem bind_error {α β : Type} (e : Stop) (f : α → Except Stop β) : ((Except.error e : Except Stop α) >>= f) = .error e := rfl

@[simp] theorem pure_eq_ok {α : Type} (a : α) : (pure a : Except Stop α) = .ok a := rfl

theorem bind_eq_ok {α β : Type} {x : Except Stop α} {f : α → Except Stop β} {r : β} :
    (x >>= f) = .ok r ↔ ∃ a, x = .ok a ∧ f a = .ok r := by
  cases x <;> simp

theorem bind_eq_error {α β : Type} {x : Except Stop α} {f : α → Except Stop β} {e : Stop} :
    (x >>= f) = .error e ↔ x = .error e ∨ ∃ a, x = .ok a ∧ f a = .error e := by
  cases x <;> simp

@[simp] theorem require_true (c : ErrCode) : require true c = .ok () := rfl

@[simp] theorem require_false (c : ErrCode) : require false c = .error (.raise c) := rfl

@[simp] theorem require_eq_ok {b : Bool} {c : ErrCode} {u : Unit} : require b c = .ok u ↔ b = true := by
  cases b <;> simp

@[simp] theorem require_eq_error {b : Bool} {c : ErrCode} {e : Stop} : require b c = .error e ↔ b = false ∧ e = .raise c := by
  cases b <;> simp [eq_comm]

/-! ### How a command ends -/

@[simp] theorem settle_ok (s t : State) : settle s (.ok t) = .next t := rfl

@[simp] theorem settle_raise (s : State) (c : ErrCode) : settle s (.error (.raise c)) = .next (raiseError c s) := rfl

@[simp] theorem settle_fault (s : State) (f : Fault) : settle s (.error (.fault f)) = .fault f := rfl

/-- A next state of a command is the one its pseudocode reaches, or the error state. -/
theorem settle_eq_next {s t : State} {r : Except Stop State} :
    settle s r = .next t ↔ r = .ok t ∨ ∃ c, r = .error (.raise c) ∧ t = raiseError c s := by
  match r with
  | .ok s' => simp
  | .error (.raise c) => simp [eq_comm]
  | .error (.fault f) => simp

theorem settle_ne_refused {s : State} {r : Except Stop State} {x : Refusal} : settle s r ≠ .refused x := by
  match r with
  | .ok s' => simp
  | .error (.raise c) => simp
  | .error (.fault f) => simp

theorem runCommand_err {s : State} (b : State → Except Stop State) (h : s.status.err = true) : runCommand s b = .next s := by
  simp [runCommand, h]

theorem runCommand_ok {s : State} (b : State → Except Stop State) (h : s.status.err = false) :
    runCommand s b = settle s (b s) := by
  simp [runCommand, h]

/-- Every next state of a command other than INIT and RUN: unchanged while ERR = 1, its pseudocode's end, or the error
state. -/
theorem runCommand_eq_next {s t : State} {b : State → Except Stop State} (h : runCommand s b = .next t) :
    (s.status.err = true ∧ t = s) ∨
    (s.status.err = false ∧ (b s = .ok t ∨ ∃ c, b s = .error (.raise c) ∧ t = raiseError c s)) := by
  cases he : s.status.err with
  | true => rw [runCommand_err b he] at h; exact .inl ⟨rfl, by simpa [eq_comm] using h⟩
  | false => rw [runCommand_ok b he] at h; exact .inr ⟨rfl, settle_eq_next.1 h⟩

/-! ### The input memories -/

theorem fetchByte_eq_ok {sp : Space} {m : Memory} {a : Nat} {b : Byte} :
    fetchByte sp m a = .ok b ↔ Memory.read m a = some b := by
  simp only [fetchByte]
  split <;> simp [*]

theorem fetchByte_eq_error {sp : Space} {m : Memory} {a : Nat} {e : Stop} :
    fetchByte sp m a = .error e ↔ Memory.read m a = none ∧ e = .fault (.unwrittenInput sp a) := by
  simp only [fetchByte]
  split <;> simp [*, eq_comm]

theorem fetchBytes_length {sp : Space} {m : Memory} {a n : Nat} {bs : List Byte} (h : fetchBytes sp m a n = .ok bs) :
    bs.length = n := by
  induction n generalizing a bs with
  | zero => simp [fetchBytes] at h; simp [← h]
  | succ n ih =>
    simp only [fetchBytes, bind_eq_ok, pure_eq_ok, Except.ok.injEq] at h
    obtain ⟨b, -, t, ht, rfl⟩ := h
    simp [ih ht]

theorem fetchColor_eq_ok {sp : Space} {m : Memory} {a : Nat} {c : Color} :
    fetchColor sp m a = .ok c ↔
      Memory.read m a = some c.r ∧ Memory.read m (a + 1) = some c.g ∧ Memory.read m (a + 2) = some c.b ∧
        Memory.read m (a + 3) = some c.a := by
  simp only [fetchColor, bind_eq_ok, fetchByte_eq_ok, pure_eq_ok, Except.ok.injEq]
  constructor
  · rintro ⟨r, hr, g, hg, b, hb, al, ha, rfl⟩
    exact ⟨hr, hg, hb, ha⟩
  · rintro ⟨hr, hg, hb, ha⟩
    exact ⟨c.r, hr, c.g, hg, c.b, hb, c.a, ha, rfl⟩

theorem sampleAlpha_eq_ok {s : State} {b : Byte} :
    sampleAlpha s = .ok b ↔ Memory.read s.raster (pixelAddr s.l s.cur.x.toNat s.cur.y.toNat + 3) = some b := fetchByte_eq_ok

theorem sampleRgb_eq_ok {s : State} {c : Rgb Byte} :
    sampleRgb s = .ok c ↔
      Memory.read s.raster (pixelAddr s.l s.cur.x.toNat s.cur.y.toNat) = some c.r ∧
      Memory.read s.raster (pixelAddr s.l s.cur.x.toNat s.cur.y.toNat + 1) = some c.g ∧
      Memory.read s.raster (pixelAddr s.l s.cur.x.toNat s.cur.y.toNat + 2) = some c.b := by
  simp only [sampleRgb, bind_eq_ok, fetchByte_eq_ok, pure_eq_ok, Except.ok.injEq]
  constructor
  · rintro ⟨r, hr, g, hg, b, hb, rfl⟩
    exact ⟨hr, hg, hb⟩
  · rintro ⟨hr, hg, hb⟩
    exact ⟨c.r, hr, c.g, hg, c.b, hb, rfl⟩

/-- The trailing alpha bytes: the sample where EffAlpha(L) = 1, none elsewhere. -/
theorem trailingAlpha_eq_ok {s : State} {bs : List Byte} :
    trailingAlpha s = .ok bs ↔
      (effAlpha s.l = true ∧ ∃ a, sampleAlpha s = .ok a ∧ bs = [a]) ∨ (effAlpha s.l = false ∧ bs = []) := by
  simp only [trailingAlpha]
  split
  · rename_i h
    simp only [bind_eq_ok, pure_eq_ok, Except.ok.injEq, h, true_and, Bool.true_eq_false, false_and, or_false, @eq_comm _ bs]
  · rename_i h
    simp [h, eq_comm]

/-! ### The output buffer -/

@[simp] theorem curObuf_setCurObuf (s : State) (m : Memory) : curObuf (setCurObuf s m) = m := by
  simp [curObuf, setCurObuf]

/-- OBufAppend: the bytes stand from the old length on, every other byte is as before. -/
theorem read_obufAppend (s : State) (bs : List Byte) (p : Nat) :
    Memory.read (curObuf (obufAppend s bs)) p =
      if Memory.len (curObuf s) ≤ p ∧ p < Memory.len (curObuf s) + bs.length then bs[p - Memory.len (curObuf s)]?
      else Memory.read (curObuf s) p := by
  simp only [obufAppend, curObuf_setCurObuf, Memory.read_writeList]

/-- OBufSet: one byte is written, every other is as before. -/
theorem read_obufSet (s : State) (a p : Nat) (b : Byte) :
    Memory.read (curObuf (obufSet s a b)) p = if p = a then some b else Memory.read (curObuf s) p := by
  simp only [obufSet, curObuf_setCurObuf, Memory.read_write]

/-- OBufOr: one byte is ORed, an unwritten one counting as 0; every other is as before. -/
theorem read_obufOr (s : State) (a p : Nat) (v : Byte) :
    Memory.read (curObuf (obufOr s a v)) p =
      if p = a then some ((Memory.read (curObuf s) a).getD 0 ||| v) else Memory.read (curObuf s) p := by
  simp only [obufOr, curObuf_setCurObuf, Memory.read_write]

/-! ### The encoders -/

@[simp] theorem isTrueColour_indexed : (indexBits e).isSome = true → isTrueColour e = false := by
  cases e <;> decide

/-- The checks of an encoder pass exactly when INIT_OK = 1, the sub-conversion is not complete, the encoder is the current
one, and it is ready (43 R140). -/
theorem encoderChecks_eq_ok {e : Encoder} {s : State} {u : Unit} :
    encoderChecks e s = .ok u ↔
      s.status.initOk = true ∧ s.status.subDone s.cur.sub = false ∧ currentEncoder s = some e ∧
        encoderReady e s.status = true := by
  simp [encoderChecks, bind_eq_ok, and_assoc]

/-- The checks of an encoder raise nothing but CMD_ILLEGAL. -/
theorem encoderChecks_eq_error {e : Encoder} {s : State} {x : Stop} (h : encoderChecks e s = .error x) :
    x = .raise .cmdIllegal := by
  simp only [encoderChecks, bind_eq_error, require_eq_error] at h
  rcases h with h | ⟨-, -, h | ⟨-, -, h⟩⟩ <;> exact h.2

/-- Every next state of a pixel encoder: unchanged while ERR = 1; its pixel written and the cursor advanced; or the error
state. -/
theorem pixelEncoder_eq_next {e : Encoder} {w : State → Except Stop State} {s t : State}
    (h : pixelEncoder e w s = .next t) :
    (s.status.err = true ∧ t = s) ∨
    (s.status.err = false ∧ encoderChecks e s = .ok () ∧ ∃ s', w s = .ok s' ∧ t = afterPixel e s') ∨
    (s.status.err = false ∧ ∃ c, t = raiseError c s ∧
      (encoderChecks e s = .error (.raise c) ∨ w s = .error (.raise c))) := by
  rcases runCommand_eq_next h with h1 | ⟨he, h1 | ⟨c, h1, ht⟩⟩
  · exact .inl h1
  · simp only [bind_eq_ok, pure_eq_ok, Except.ok.injEq] at h1
    obtain ⟨u, hu, s', hs, rfl⟩ := h1
    exact .inr (.inl ⟨he, hu, s', hs, rfl⟩)
  · refine .inr (.inr ⟨he, c, ht, ?_⟩)
    simp only [bind_eq_error, pure_eq_ok, reduceCtorEq, and_false, exists_false, or_false] at h1
    rcases h1 with h1 | ⟨u, -, h1⟩
    · exact .inl h1
    · exact .inr h1

/-- A pixel encoder whose checks pass and whose own rule succeeds completes. -/
theorem pixelEncoder_completes {e : Encoder} {w : State → Except Stop State} {s s' : State} (he : s.status.err = false)
    (hc : encoderChecks e s = .ok ()) (hw : w s = .ok s') : pixelEncoder e w s = .next (afterPixel e s') := by
  simp [pixelEncoder, runCommand_ok _ he, hc, hw]

end Sys2Proof.Machine
end

