-- ==== Sys2Proof/Laws/Exec.lean ====
section
/-! SUPPORT. For each command, one lemma that says once every next state it can give. -/

namespace Sys2Proof.Machine

/-- A computation that never raises the code NONE. -/
def NoNone {α : Type} (x : Except Stop α) : Prop := x ≠ .error (.raise .none)

theorem NoNone.ok {α : Type} (a : α) : NoNone (.ok a : Except Stop α) := nofun

theorem NoNone.bind {α β : Type} {x : Except Stop α} {f : α → Except Stop β} (hx : NoNone x) (hf : ∀ a, NoNone (f a)) :
    NoNone (x >>= f) := by
  cases x with
  | ok a => exact hf a
  | error e => intro h; simp only [bind_error, Except.error.injEq] at h; exact hx (by rw [h])

theorem NoNone.require {b : Bool} {c : ErrCode} (hc : c ≠ .none) : NoNone (require b c) := by
  simp only [NoNone, ne_eq, require_eq_error, Stop.raise.injEq, not_and]
  exact fun _ h => hc h.symm

theorem NoNone.fetchByte {sp : Space} {m : Memory} {a : Nat} : NoNone (fetchByte sp m a) := by
  simp [NoNone, fetchByte_eq_error]

theorem NoNone.fetchColor {sp : Space} {m : Memory} {a : Nat} : NoNone (fetchColor sp m a) :=
  .bind .fetchByte fun _ => .bind .fetchByte fun _ => .bind .fetchByte fun _ => .bind .fetchByte fun _ => .ok _

theorem NoNone.fetchRow {sp : Space} {m : Memory} {a n : Nat} : NoNone (fetchRow sp m a n) := by
  induction n generalizing a with
  | zero => exact .ok _
  | succ n ih => exact .bind .fetchColor fun _ => .bind ih fun _ => .ok _

theorem NoNone.fetchRows {sp : Space} {m : Memory} {w a h : Nat} : NoNone (fetchRows sp m w a h) := by
  induction h generalizing a with
  | zero => exact .ok _
  | succ n ih => exact .bind .fetchRow fun _ => .bind ih fun _ => .ok _

theorem NoNone.fetchBytes {sp : Space} {m : Memory} {a n : Nat} : NoNone (fetchBytes sp m a n) := by
  induction n generalizing a with
  | zero => exact .ok _
  | succ n ih => exact .bind .fetchByte fun _ => .bind ih fun _ => .ok _

theorem NoNone.trailingAlpha {s : State} : NoNone (trailingAlpha s) := by
  simp only [Machine.trailingAlpha]
  split
  · exact .bind .fetchByte fun _ => .ok _
  · exact .ok _

theorem NoNone.paletteAt {s : State} : NoNone (paletteAt s) := by
  simp only [Machine.paletteAt]
  split
  · split
    · exact .ok _
    · simp [NoNone]
  · simp [NoNone]

theorem NoNone.resolveOrMiss {pal : List Color} {p : Nat} {c : Color} : NoNone (resolveOrMiss pal p c) := by
  simp only [Machine.resolveOrMiss]
  split <;> simp [NoNone]

theorem NoNone.encoderChecks {e : Encoder} {s : State} : NoNone (encoderChecks e s) :=
  .bind (.require (by decide)) fun _ => .bind (.require (by decide)) fun _ => .require (by decide)

/-- How a command that ran ends: its effect, or the error state with a code that is not NONE. -/
def Ends (s t : State) (effect : Prop) : Prop :=
  (s.status.err = true ∧ t = s) ∨ (s.status.err = false ∧ (effect ∨ ∃ c, c ≠ ErrCode.none ∧ t = raiseError c s))

theorem runCommand_ends {s t : State} {b : State → Except Stop State} (hn : NoNone (b s)) (h : runCommand s b = .next t) :
    Ends s t (b s = .ok t) := by
  rcases runCommand_eq_next h with h | ⟨he, h | ⟨c, hc, h⟩⟩
  · exact .inl h
  · exact .inr ⟨he, .inl h⟩
  · exact .inr ⟨he, .inr ⟨c, fun h0 => hn (h0 ▸ hc), h⟩⟩

theorem Ends.mono {s t : State} {p q : Prop} (h : Ends s t p) (hpq : p → q) : Ends s t q := by
  rcases h with h | ⟨he, h | h⟩
  · exact .inl h
  · exact .inr ⟨he, .inl (hpq h)⟩
  · exact .inr ⟨he, .inr h⟩

/-! ### The encoders' own rules write the current output buffer and nothing else -/

theorem appendPixel_eq_ok {bs : List Byte} {s t : State} (h : appendPixel bs s = .ok t) :
    ∃ a, trailingAlpha s = .ok a ∧ t = obufAppend s (bs ++ a) := by
  simp only [appendPixel, bind_eq_ok, pure_eq_ok, Except.ok.injEq] at h
  obtain ⟨a, ha, rfl⟩ := h
  exact ⟨a, ha, rfl⟩

theorem alphaField_eq_ok {k : Nat} {s t : State} (h : alphaField k s = .ok t) :
    ∃ a, sampleAlpha s = .ok a ∧ t = packField s 0 k (alphaVal k a) := by
  simp only [alphaField, bind_eq_ok, pure_eq_ok, Except.ok.injEq] at h
  obtain ⟨a, ha, rfl⟩ := h
  exact ⟨a, ha, rfl⟩

theorem indexField_eq_ok {k : Nat} {s t : State} (h : indexField k s = .ok t) :
    ∃ i, indexVal k s = .ok i ∧ t = packField s (4 * palSize k) k (BitVec.ofNat 8 i) := by
  simp only [indexField, bind_eq_ok, pure_eq_ok, Except.ok.injEq] at h
  obtain ⟨a, ha, rfl⟩ := h
  exact ⟨a, ha, rfl⟩

/-- The own rule of each pixel encoder (43 R141 to R160). -/
def writePixel : Encoder → State → Except Stop State
  | .tc332, s => appendPixel [c8 s.act] s
  | .tc565, s => appendPixel (swappable565 (effSwap s.l) (c16 s.act)) s
  | .tc565s, s => appendPixel (highFirst (c16 s.act)) s
  | .tc888, s => appendPixel [s.act.b, s.act.g, s.act.r] s
  | .tc8888, s => do
    let a ← trailingAlpha s
    return obufAppend s (tc8888Bytes (effSwap s.l) s.act a)
  | .pl565, s => .ok (obufAppend s (swappable565 (effSwap s.l) (c16 s.act)))
  | .pla8, s => do
    let a ← sampleAlpha s
    return obufAppend s [a]
  | .a1, s => alphaField 1 s
  | .a2, s => alphaField 2 s
  | .a4, s => alphaField 4 s
  | .a8, s => do
    let a ← sampleAlpha s
    return packByte s 0 (alphaVal 8 a)
  | .i1, s => indexField 1 s
  | .i2, s => indexField 2 s
  | .i4, s => indexField 4 s
  | .i8, s => do
    let i ← indexVal 8 s
    return packByte s 1024 (BitVec.ofNat 8 i)
  | .raw, s => .ok s

/-- Every pixel encoder is the template of 43 R140 with its own rule. -/
theorem exec_encoder {e : Encoder} (he : e ≠ .raw) (s : State) : exec (encoderInstr e) s = pixelEncoder e (writePixel e) s := by
  cases e <;> first | rfl | exact absurd rfl he

/-- The own rule of a pixel encoder changes the current output buffer and nothing else. -/
theorem writePixel_eq_ok {e : Encoder} (he : e ≠ .raw) {s t : State} (h : writePixel e s = .ok t) :
    ∃ m, t = setCurObuf s m := by
  cases e <;>
    simp only [writePixel, appendPixel, alphaField, indexField, bind_eq_ok, pure_eq_ok, Except.ok.injEq] at h
  case pl565 => exact ⟨_, h.symm⟩
  case raw => exact absurd rfl he
  all_goals
    obtain ⟨a, -, rfl⟩ := h
    exact ⟨_, rfl⟩

theorem NoNone.writePixel {e : Encoder} {s : State} : NoNone (writePixel e s) := by
  cases e <;> simp only [Machine.writePixel]
  case tc332 | tc565 | tc565s | tc888 | tc8888 => exact .bind .trailingAlpha fun _ => .ok _
  case pl565 | raw => exact .ok _
  case pla8 | a1 | a2 | a4 | a8 => exact .bind .fetchByte fun _ => .ok _
  case i1 | i2 | i4 | i8 => exact .bind (.bind .fetchColor fun _ => .resolveOrMiss) fun _ => .ok _

/-- Every next state of a pixel encoder. -/
theorem exec_encoder_ends {e : Encoder} (he : e ≠ .raw) {s t : State} (h : exec (encoderInstr e) s = .next t) :
    Ends s t (encoderChecks e s = .ok () ∧ ∃ m, writePixel e s = .ok (setCurObuf s m) ∧ t = afterPixel e (setCurObuf s m)) := by
  rw [exec_encoder he] at h
  refine (runCommand_ends (.bind .encoderChecks fun _ => .bind .writePixel fun _ => .ok _) h).mono fun h => ?_
  simp only [bind_eq_ok, pure_eq_ok, Except.ok.injEq] at h
  obtain ⟨u, hc, s', hw, rfl⟩ := h
  obtain ⟨m, rfl⟩ := writePixel_eq_ok he hw
  exact ⟨hc, m, hw, rfl⟩

/-! ### The other commands -/

/-- Every next state of ROWS. -/
theorem exec_rows_ends {s t : State} (h : exec .rows s = .next t) :
    Ends s t (s.status.initOk = true ∧ t = { s with nerr := ⟨0, 0, 0⟩ }) := by
  refine (runCommand_ends (.bind (.require (by decide)) fun _ => .ok _) h).mono fun h => ?_
  simp only [rowsBody, bind_eq_ok, require_eq_ok, pure_eq_ok, Except.ok.injEq] at h
  obtain ⟨-, hi, rfl⟩ := h
  exact ⟨hi, rfl⟩

theorem trueColourAt_eq_ok {s : State} {e : Encoder} {d : Rgb Nat} :
    trueColourAt s = .ok (e, d) ↔ currentEncoder s = some e ∧ depths e = some d := by
  simp only [trueColourAt]
  cases hc : currentEncoder s with
  | none => simp
  | some e' =>
    cases hd : depths e' with
    | none => simp only [hd, Option.some.injEq, reduceCtorEq, false_iff, not_and]; rintro rfl; simp [hd]
    | some d' =>
      simp only [hd, Except.ok.injEq, Prod.mk.injEq, Option.some.injEq]
      constructor
      · rintro ⟨rfl, rfl⟩; exact ⟨rfl, hd⟩
      · rintro ⟨rfl, h⟩; exact ⟨rfl, Option.some.inj (hd.symm.trans h)⟩

theorem NoNone.trueColourAt {s : State} : NoNone (trueColourAt s) := by
  simp only [Machine.trueColourAt]
  split
  · split <;> simp [NoNone]
  · simp [NoNone]

theorem NoNone.sampleRgb {s : State} : NoNone (sampleRgb s) :=
  .bind .fetchByte fun _ => .bind .fetchByte fun _ => .bind .fetchByte fun _ => .ok _

/-- Every next state of QPIX. -/
theorem exec_qpix_ends {s t : State} (h : exec .qpix s = .next t) :
    Ends s t (s.status.initOk = true ∧ s.status.subDone s.cur.sub = false ∧ s.status.actv = false ∧
      ∃ e d smp, currentEncoder s = some e ∧ depths e = some d ∧ sampleRgb s = .ok smp ∧ t = quantizePixel s e d smp) := by
  refine (runCommand_ends (.bind (.require (by decide)) fun _ => .bind .trueColourAt fun _ => .bind (.require (by decide)) fun _ =>
    .bind .sampleRgb fun _ => .ok _) h).mono fun h => ?_
  simp only [qpixBody, bind_eq_ok, require_eq_ok, pure_eq_ok, Except.ok.injEq, Bool.and_eq_true, Bool.not_eq_true'] at h
  obtain ⟨-, ⟨hi, hs⟩, ⟨e, d⟩, hed, -, ha, smp, hsmp, rfl⟩ := h
  obtain ⟨h1, h2⟩ := trueColourAt_eq_ok.1 hed
  exact ⟨hi, hs, ha, e, d, smp, h1, h2, hsmp, rfl⟩

/-- Every next state of TRUNC. -/
theorem exec_trunc_ends {v : BitVec 12} {b : BitVec 4} {s t : State} (h : exec (.trunc v b) s = .next t) :
    Ends s t (1 ≤ b.toNat ∧ b.toNat ≤ 8 ∧
      t = { s with res := BitVec.ofInt 32 (truncTo (tieRule s.params .truncCommand) v.toInt b.toNat) }) := by
  refine (runCommand_ends (.bind (.require (by decide)) fun _ => .ok _) h).mono fun h => ?_
  simp only [truncBody, bind_eq_ok, require_eq_ok, pure_eq_ok, Except.ok.injEq, Bool.and_eq_true, decide_eq_true_eq] at h
  obtain ⟨-, ⟨h1, h2⟩, rfl⟩ := h
  exact ⟨h1, h2, rfl⟩

theorem paletteAt_eq_ok {s : State} {p : Nat} :
    paletteAt s = .ok p ↔ ∃ e k, currentEncoder s = some e ∧ indexBits e = some k ∧ p = palSize k := by
  simp only [paletteAt]
  cases hc : currentEncoder s with
  | none => simp
  | some e =>
    cases hk : indexBits e with
    | none => simp [hk]
    | some k => simp [hk, eq_comm]

theorem palbChecks_eq_ok {s : State} {p : Nat} :
    palbChecks s = .ok p ↔ s.status.initOk = true ∧ paletteAt s = .ok p ∧ s.status.palv = false := by
  simp [palbChecks, bind_eq_ok]

/-- What PALB leaves when the answer keeps the contract. -/
theorem acceptAnswer_eq_ok {p : Nat} {a : PalAnswer} {s t : State} :
    acceptAnswer p a s = .ok t ↔
      answerOk s.l p a = true ∧
      t = { setCurObuf s (Memory.writeList (curObuf s) 0 (regionBytes (paletteOf a.colors) p)) with
        remap := Memory.writeList s.remap 0 (a.remap.flatten.flatMap rgbaBytes)
        pal := paletteOf a.colors
        status := { s.status with palv := true } } := by
  simp only [acceptAnswer, bind_eq_ok, require_eq_ok, pure_eq_ok, Except.ok.injEq]
  constructor
  · rintro ⟨-, h, rfl⟩; exact ⟨h, rfl⟩
  · rintro ⟨h, rfl⟩; exact ⟨(), h, rfl⟩

theorem palbBody_eq_ok {s t : State} :
    palbBody s = .ok t ↔ ∃ p image, palbChecks s = .ok p ∧ rasterImage s = .ok image ∧
      acceptAnswer p (collaborator s (palRequest s.l image p)) s = .ok t := by
  simp only [palbBody, bind_eq_ok]
  constructor
  · rintro ⟨p, hp, i, hi, h⟩; exact ⟨p, i, hp, hi, h⟩
  · rintro ⟨p, i, hp, hi, h⟩; exact ⟨p, hp, i, hi, h⟩

/-- What PALB leaves when it begins the palette hold. -/
theorem palbHold_eq_ok {s t : State} :
    palbHold s = .ok t ↔ (∃ p, palbChecks s = .ok p) ∧ (∃ image, rasterImage s = .ok image) ∧
      t = { s with waiting := true, status := { s.status with busy := true } } := by
  simp only [palbHold, bind_eq_ok, pure_eq_ok, Except.ok.injEq]
  constructor
  · rintro ⟨p, hp, i, hi, rfl⟩; exact ⟨⟨p, hp⟩, ⟨i, hi⟩, rfl⟩
  · rintro ⟨⟨p, hp⟩, ⟨i, hi⟩, rfl⟩; exact ⟨p, hp, i, hi, rfl⟩

theorem NoNone.palbChecks {s : State} : NoNone (palbChecks s) :=
  .bind (.require (by decide)) fun _ => .bind .paletteAt fun _ => .bind (.require (by decide)) fun _ => .ok _

theorem NoNone.palbBody {s : State} : NoNone (palbBody s) :=
  .bind .palbChecks fun _ => .bind .fetchRows fun _ => .bind (.require (by decide)) fun _ => .ok _

theorem NoNone.palbHold {s : State} : NoNone (palbHold s) :=
  .bind .palbChecks fun _ => .bind .fetchRows fun _ => .ok _

/-- Every next state of PALB: the palette is built, or the palette hold begins. -/
theorem exec_palb_ends {s t : State} (h : exec .palb s = .next t) :
    Ends s t ((s.collabDefers = false ∧ palbBody s = .ok t) ∨
      (s.collabDefers = true ∧ (∃ p, palbChecks s = .ok p) ∧
        t = { s with waiting := true, status := { s.status with busy := true } })) := by
  have hn : NoNone ((if s.collabDefers then palbHold else palbBody) s) := by
    split
    · exact .palbHold
    · exact .palbBody
  refine (runCommand_ends hn h).mono fun h => ?_
  cases hd : s.collabDefers with
  | false => rw [hd] at h; exact .inl ⟨rfl, h⟩
  | true =>
    rw [hd] at h
    obtain ⟨hp, -, rfl⟩ := palbHold_eq_ok.mp h
    exact .inr ⟨rfl, hp, by rw [← hd]⟩

theorem resolveOrMiss_eq_ok {pal : List Color} {p i : Nat} {c : Color} :
    resolveOrMiss pal p c = .ok i ↔ resolve pal p c = some i := by
  simp only [resolveOrMiss]
  split <;> simp [*]

/-- Every next state of PALR. -/
theorem exec_palr_ends {s t : State} (h : exec .palr s = .next t) :
    Ends s t (s.status.initOk = true ∧ s.status.palv = true ∧
      ∃ p i, paletteAt s = .ok p ∧ resolve s.pal p (argColor s.arg) = some i ∧ t = { s with res := BitVec.ofNat 32 i }) := by
  refine (runCommand_ends (.bind (.require (by decide)) fun _ => .bind .paletteAt fun _ => .bind (.require (by decide)) fun _ =>
    .bind .resolveOrMiss fun _ => .ok _) h).mono fun h => ?_
  simp only [palrBody, bind_eq_ok, require_eq_ok, pure_eq_ok, Except.ok.injEq, resolveOrMiss_eq_ok] at h
  obtain ⟨-, hi, p, hp, -, hv, i, hr, rfl⟩ := h
  exact ⟨hi, hv, p, i, hp, hr, rfl⟩

theorem NoNone.hdrOrIllegal {p : Params} {l : Latched} : NoNone (hdrOrIllegal p l) := by
  simp only [Machine.hdrOrIllegal]
  split <;> simp [NoNone]

theorem NoNone.completeBodies {s : State} {is : List (BitVec 2)} : NoNone (completeBodies s is) := by
  induction is with
  | nil => exact .ok _
  | cons i t ih =>
    refine .bind ?_ fun _ => .bind ih fun _ => .ok _
    simp only [completeBody]
    split <;> simp [NoNone]

theorem NoNone.serCheck {s : State} : NoNone (serCheck s) :=
  .bind (.require (by decide)) fun _ => .bind (.require (by decide)) fun _ => .bind (.require (by decide)) fun _ =>
    .completeBodies

/-- Every next state of HDR. -/
theorem exec_hdr_ends {s t : State} (h : exec .hdr s = .next t) :
    Ends s t (s.status.initOk = true ∧ ∃ w, t = { s with res := w }) := by
  refine (runCommand_ends (.bind (.require (by decide)) fun _ => .bind .hdrOrIllegal fun _ => .bind (.require (by decide)) fun _ => .ok _) h).mono fun h => ?_
  simp only [hdrBody, bind_eq_ok, require_eq_ok, pure_eq_ok, Except.ok.injEq] at h
  obtain ⟨-, hi, w, -, -, -, rfl⟩ := h
  exact ⟨hi, w, rfl⟩

theorem serCheck_eq_ok {s : State} {bodies : List (List Byte)} :
    serCheck s = .ok bodies ↔ s.status.initOk = true ∧ (∀ i ∈ subsOf s.l, s.status.subDone i = true) ∧
      (isIndexed s.l.fmt = true → s.status.palv = true) ∧ completeBodies s (subsOf s.l) = .ok bodies := by
  simp [serCheck, bind_eq_ok, Bool.or_eq_true]
  intro _ _
  cases isIndexed s.l.fmt <;> simp

/-- OUTLEN of an artifact that is not empty is not 0, whatever its length (10 R35). -/
theorem outlenOf_pos {n : Nat} (h : 0 < n) : 0 < (outlenOf n).toNat := by
  have := (Config.outlenBeyond n).isLt
  simp only [outlenOf]
  split <;> simp only [BitVec.toNat_ofNat] <;> omega

/-- A binary artifact is at least as long as its header (10 R35). -/
theorem four_le_length_binary (w : Word) (body : List Byte) : 4 ≤ (le32 w ++ body).length := by simp [le32]

/-- A text that holds four lines has at least four characters. -/
theorem four_le_length_lines (a b c d e f g : List Byte) :
    4 ≤ (a ++ line b ++ line c ++ d ++ line e ++ line f ++ g).length := by
  simp [line]
  omega

/-- The last two lines of the preamble (45 R198). -/
theorem preamble_ends (p : Params) : ∃ a, preamble p = a ++ lineOf "#endif" ++ lineOf "" := ⟨_, rfl⟩

/-- A text artifact holds at least four lines: the last two of the preamble, the closing brace and the empty line (10 R35). -/
theorem four_le_length_text (p : Params) (l : Latched) (bodies : List (List Byte)) :
    4 ≤ (textArtifact p l bodies).length := by
  obtain ⟨a, h⟩ := preamble_ends p
  have : textArtifact p l bodies =
      a ++ line (ascii "#endif") ++ line (ascii "") ++ (declaration p ++ textBody p bodies) ++
        line ([closeBrace] ++ ascii ";") ++ line (ascii "") ++ descriptor p l (bodies.headD []).length := by
    rw [textArtifact, h, List.append_assoc _ (declaration p)]
    rfl
  rw [this]
  exact four_le_length_lines _ _ _ _ _ _ _

/-- Every next state of SERB. -/
theorem exec_serb_ends {s t : State} (h : exec .serb s = .next t) :
    Ends s t (∃ bodies w, serCheck s = .ok bodies ∧ s.l.out = true ∧ hdr s.params s.l = some w ∧
      t = setArtifact s (le32 w ++ bodies.headD [])) := by
  refine (runCommand_ends (.bind .serCheck fun _ => .bind (.require (by decide)) fun _ => .bind .hdrOrIllegal fun _ => .ok _) h).mono fun h => ?_
  simp only [serbBody, bind_eq_ok, require_eq_ok, pure_eq_ok, Except.ok.injEq] at h
  obtain ⟨bodies, hb, -, ho, w, hw, rfl⟩ := h
  refine ⟨bodies, w, hb, ho, ?_, rfl⟩
  simp only [hdrOrIllegal] at hw
  split at hw <;> simp_all

/-- Every next state of SERT. -/
theorem exec_sert_ends {s t : State} (h : exec .sert s = .next t) :
    Ends s t (∃ bodies, serCheck s = .ok bodies ∧ s.l.out = false ∧ t = setArtifact s (textArtifact s.params s.l bodies)) := by
  refine (runCommand_ends (.bind .serCheck fun _ => .bind (.require (by decide)) fun _ => .ok _) h).mono fun h => ?_
  simp only [sertBody, bind_eq_ok, require_eq_ok, pure_eq_ok, Except.ok.injEq, Bool.not_eq_true'] at h
  obtain ⟨bodies, hb, -, ho, rfl⟩ := h
  exact ⟨bodies, hb, ho, rfl⟩

/-- Every next state of SUBC. -/
theorem exec_subc_ends {i : BitVec 2} {s t : State} (h : exec (.subc i) s = .next t) :
    Ends s t (s.status.initOk = true ∧ s.l.nsub = 4 ∧ i.toNat = s.cur.sub.toNat + 1 ∧ s.status.subDone s.cur.sub = true ∧
      t = if noPixels s.l then finishEmpty (freshSub { s with obuf := s.obuf.set i [] } i) false
        else freshSub { s with obuf := s.obuf.set i [] } i) := by
  refine (runCommand_ends (.bind (.require (by decide)) fun _ => .bind (.require (by decide)) fun _ => .ok _) h).mono fun h => ?_
  simp only [subcBody, bind_eq_ok, require_eq_ok, pure_eq_ok, Except.ok.injEq, Bool.and_eq_true, decide_eq_true_eq] at h
  obtain ⟨-, ⟨h1, h2⟩, -, ⟨h3, h4⟩, rfl⟩ := h
  exact ⟨h1, h2, h3, h4, rfl⟩

/-- Every next state of ENC.RAW. -/
theorem exec_raw_ends {s t : State} (h : exec .encRaw s = .next t) :
    Ends s t (encoderChecks .raw s = .ok () ∧ ∃ bytes, fetchBytes .rawin s.rawin 0 s.l.rawlen.toNat = .ok bytes ∧
      t = complete (setCurObuf s (Memory.writeList (curObuf s) 0 bytes)) s.cur.sub) := by
  refine (runCommand_ends (.bind .encoderChecks fun _ => .bind .fetchBytes fun _ => .ok _) h).mono fun h => ?_
  simp only [encRawBody, bind_eq_ok, pure_eq_ok, Except.ok.injEq] at h
  obtain ⟨u, hc, bytes, hb, rfl⟩ := h
  exact ⟨hc, bytes, hb, rfl⟩

/-- What the checks of INIT let through (44 R171). -/
theorem validate_eq_ok {p : Params} {cfg instat : Word} {f : Fmt} (h : validate p cfg instat = .ok f) :
    fmtOfCode (cfgFmt cfg) = some f ∧
    (cfgOut cfg = true → isComposite f = true → 1 ≤ (cfgBinsub cfg).toNat ∧ (cfgBinsub cfg).toNat ≤ 4) ∧
    (cfgOut cfg = true → (formatCode p f).isSome = true) ∧ (instatDecFail instat = true → isRaw f = true) := by
  simp only [validate] at h
  split at h
  · simp at h
  · rename_i g hg
    simp only [bind_eq_ok, require_eq_ok, pure_eq_ok, Except.ok.injEq, Bool.not_eq_true'] at h
    obtain ⟨-, h1, -, h2, -, h3, -, h4, rfl⟩ := h
    refine ⟨hg, fun ho hc => ?_, fun ho => ?_, fun hd => ?_⟩
    · simp [badBinsub, ho, hc] at h1
      simp [noBinsub, ho, hc] at h2
      omega
    · simpa [ho] using h3
    · simpa [hd] using h4

theorem NoNone.initBody {s : State} : NoNone (initBody s) := by
  refine .bind ?_ fun _ => .bind (.require (by decide)) fun _ => .ok _
  simp only [validate]
  split
  · simp [NoNone]
  · exact .bind (.require (by decide)) fun _ => .bind (.require (by decide)) fun _ => .bind (.require (by decide)) fun _ =>
      .bind (.require (by decide)) fun _ => .ok _

/-- Every next state of INIT: the conversion starts, or the error state, entered from the state with the old outcome
cleared. -/
theorem exec_init_eq_next {s t : State} (h : exec .init s = .next t) :
    (∃ f, validate s.params s.cfg s.instat = .ok f ∧
      (cfgOut s.cfg = true → (chooseDims s.dims s.odims s.instat).1.toNat ≤ 2047 ∧
        (chooseDims s.dims s.odims s.instat).2.1.toNat ≤ 2047) ∧
      t = startImage (latch s.cfg f (chooseDims s.dims s.odims s.instat).1 (chooseDims s.dims s.odims s.instat).2.1 s.rawlen)
        (chooseDims s.dims s.odims s.instat).2.2 (clearOutcome s)) ∨
    ∃ c, c ≠ ErrCode.none ∧ t = raiseError c (clearOutcome s) := by
  rcases settle_eq_next.1 h with h | ⟨c, hc, h⟩
  · simp only [initBody, bind_eq_ok, require_eq_ok, pure_eq_ok, Except.ok.injEq] at h
    obtain ⟨f, hv, u, hd, rfl⟩ := h
    refine .inl ⟨f, hv, fun ho => ?_, rfl⟩
    simp only [clearOutcome_cfg, ho, Bool.true_and, Bool.not_eq_true', Bool.or_eq_false_iff] at hd
    exact ⟨Nat.not_lt.1 (of_decide_eq_false hd.1), Nat.not_lt.1 (of_decide_eq_false hd.2)⟩
  · exact .inr ⟨c, fun h0 => NoNone.initBody (h0 ▸ hc), h⟩

/-- Every next state of RUN: the state INIT leaves with the program queued, or the error state. -/
theorem exec_run_eq_next {s t : State} (h : exec .run s = .next t) :
    (∃ u, initBody (clearOutcome s) = .ok u ∧ exec .init s = .next u ∧ t = startRun u) ∨
    ∃ c, c ≠ ErrCode.none ∧ t = raiseError c (clearOutcome s) := by
  rcases settle_eq_next.1 h with h | ⟨c, hc, h⟩
  · simp only [bind_eq_ok, pure_eq_ok, Except.ok.injEq] at h
    obtain ⟨u, hu, rfl⟩ := h
    refine .inl ⟨u, hu, ?_, rfl⟩
    simp [exec, execInit, hu]
  · refine .inr ⟨c, fun h0 => ?_, h⟩
    exact (NoNone.bind (f := fun s' => pure (startRun s')) NoNone.initBody fun _ => .ok _) (h0 ▸ hc)

/-- Every command is one of those the lemmas above speak of. -/
theorem Instr.cases_encoder (i : Instr) :
    (∃ e, e ≠ Encoder.raw ∧ i = encoderInstr e) ∨ i = .encRaw ∨ i = .init ∨ i = .run ∨ i = .palb ∨ i = .rows ∨ i = .qpix ∨
      (∃ v b, i = .trunc v b) ∨ i = .palr ∨ i = .hdr ∨ i = .serb ∨ i = .sert ∨ ∃ k, i = .subc k := by
  cases i <;> simp <;> first
    | exact ⟨.tc332, by decide, rfl⟩ | exact ⟨.tc565, by decide, rfl⟩ | exact ⟨.tc565s, by decide, rfl⟩
    | exact ⟨.tc888, by decide, rfl⟩ | exact ⟨.tc8888, by decide, rfl⟩ | exact ⟨.pl565, by decide, rfl⟩
    | exact ⟨.pla8, by decide, rfl⟩ | exact ⟨.a1, by decide, rfl⟩ | exact ⟨.a2, by decide, rfl⟩
    | exact ⟨.a4, by decide, rfl⟩ | exact ⟨.a8, by decide, rfl⟩ | exact ⟨.i1, by decide, rfl⟩
    | exact ⟨.i2, by decide, rfl⟩ | exact ⟨.i4, by decide, rfl⟩ | exact ⟨.i8, by decide, rfl⟩

end Sys2Proof.Machine
end

