-- ==== Sys2Proof/Laws/PerInstr.lean ====
section
/-! SUPPORT. The statements made of every command, one lemma for each constructor of `Instr`. -/

namespace Sys2Proof.Laws.OpcodeField

/-- The word of a command holds its opcode in [7:0], and its bits [31:24], which belong to no format, are 0 (30 R80, R81). -/
def Statement (i : Instr) : Prop := opField (encode i) = i.opcode ∧ (encode i).extractLsb' 24 8 = 0

theorem opField_append (o : BitVec 24) (c : BitVec 8) : opField (o ++ c) = c := by
  ext k hk
  rw [opField, BitVec.getElem_extractLsb']
  erw [BitVec.getLsbD_append]
  simp [hk]

theorem init : Statement .init := by unfold Statement; decide

theorem run : Statement .run := by unfold Statement; decide

theorem palb : Statement .palb := by unfold Statement; decide

theorem rows : Statement .rows := by unfold Statement; decide

theorem qpix : Statement .qpix := by unfold Statement; decide

theorem trunc (value : BitVec 12) (bits : BitVec 4) : Statement (.trunc value bits) := by
  refine ⟨opField_append _ _, ?_⟩
  ext k hk
  rw [BitVec.getElem_extractLsb', encode, Instr.operandBits]
  erw [BitVec.getLsbD_append]
  rw [if_neg (by omega)]
  erw [BitVec.getLsbD_append]
  rw [if_neg (by omega)]
  erw [BitVec.getLsbD_append]
  simp [show ¬ 24 + k - 8 - 12 < 4 by omega]

theorem palr : Statement .palr := by unfold Statement; decide

theorem hdr : Statement .hdr := by unfold Statement; decide

theorem serb : Statement .serb := by unfold Statement; decide

theorem sert : Statement .sert := by unfold Statement; decide

theorem subc (sub : BitVec 2) : Statement (.subc sub) := by
  revert sub
  unfold Statement
  decide

theorem encTc332 : Statement .encTc332 := by unfold Statement; decide

theorem encTc565 : Statement .encTc565 := by unfold Statement; decide

theorem encTc565s : Statement .encTc565s := by unfold Statement; decide

theorem encTc888 : Statement .encTc888 := by unfold Statement; decide

theorem encA1 : Statement .encA1 := by unfold Statement; decide

theorem encA2 : Statement .encA2 := by unfold Statement; decide

theorem encA4 : Statement .encA4 := by unfold Statement; decide

theorem encA8 : Statement .encA8 := by unfold Statement; decide

theorem encI1 : Statement .encI1 := by unfold Statement; decide

theorem encI2 : Statement .encI2 := by unfold Statement; decide

theorem encI4 : Statement .encI4 := by unfold Statement; decide

theorem encI8 : Statement .encI8 := by unfold Statement; decide

theorem encRaw : Statement .encRaw := by unfold Statement; decide

theorem encTc8888 : Statement .encTc8888 := by unfold Statement; decide

theorem encPl565 : Statement .encPl565 := by unfold Statement; decide

theorem encPla8 : Statement .encPla8 := by unfold Statement; decide

end Sys2Proof.Laws.OpcodeField
end

