-- ==== Sys2Proof/Tests/Slice0.lean ====
section
/-! SUPPORT. The model's own tests, with the expected values of 95_test_vectors.md and of the rules' examples (not the model's
answers), and for every statement of the Obligations file a state that meets its hypotheses. -/

namespace Sys2Proof.Tests

set_option Elab.async false

open Sys2Proof Sys2Proof.Machine

/-! ### Helpers -/

/-- The outcome is a next state of which `p` holds. -/
def gives (o : Host.Outcome State Fault Refusal) (p : State → Bool) : Bool :=
  match o with
  | .next t => p t
  | .fault _ => false
  | .refused _ => false

/-- Bytes at the addresses from 0 on. -/
def bytes (l : List Nat) : Memory := Memory.writeList [] 0 (l.map (BitVec.ofNat 8))

/-- A state after reset with CFG, DIMS and RASTER written by the host. -/
def request (cfg w h : Nat) (samples : List Nat) : State :=
  { State.reset with cfg := BitVec.ofNat 32 cfg, dims := BitVec.ofNat 32 (w + 65536 * h), raster := bytes samples }

/-- The state after some commands; a fault leaves it as it is. -/
def after : List Instr → State → State
  | [], s => s
  | i :: t, s =>
    match exec i s with
    | .next u => after t u
    | .fault _ => s
    | .refused _ => s

/-- The pixel (12, 34, 56, 78) of V-E1. -/
def pixel : List Nat := [0x12, 0x34, 0x56, 0x78]

/-- V-E1: one pixel, quantized, before its encoder. -/
def quantized (cfg : Nat) : State := after [.init, .qpix] (request cfg 1 1 pixel)

/-- A row of alpha samples, colour 0 (V-E3). -/
def alphas (l : List Nat) : List Nat := l.flatMap fun a => [0, 0, 0, a]

/-- One row of alpha samples, INIT done. -/
def alphaRow (cfg : Nat) (l : List Nat) : State := after [.init] (request cfg l.length 1 (alphas l))

def red : Color := { r := 0xFF, g := 0, b := 0, a := 0xFF }
def green : Color := { r := 0, g := 0xFF, b := 0, a := 0xFF }
def blue : Color := { r := 0, g := 0, b := 0xFF, a := 0xFF }

/-- An indexed request for one row, with the collaborator that answers with `list` and the image itself (V-P). -/
def indexedRow (cfg size : Nat) (list row : List Color) : State :=
  { request cfg row.length 1 (row.flatMap fun c => [c.r.toNat, c.g.toNat, c.b.toNat, c.a.toNat]) with
    palq := [({ width := row.length, image := [row], size := size }, { colors := list, remap := [row] })] }

/-- V-P1 after INIT. -/
def vp1 : State := after [.init] (indexedRow 0x09 4 [red, green, blue] [red, green, blue, green, red])

/-- V-P1 after PALB. -/
def vp1Built : State := after [.palb] vp1

/-- An I8 conversion of one row blue, red, with its palette built, the palette region left out. -/
def i8Ready : State :=
  let s := after [.init] (request 0x0B 2 1 [])
  { s with
    pal := paletteOf [red, green, blue], remap := bytes [0, 0, 0xFF, 0xFF, 0xFF, 0, 0, 0xFF]
    status := { s.status with palv := true } }

/-- The bytes of an output buffer. -/
def contents (m : Memory) : List Byte := m.map Prod.snd

/-- V-E6: a raw request with RAWIN = 89 50 4E. -/
def rawRequest (cfg : Nat) : State :=
  { State.reset with cfg := BitVec.ofNat 32 cfg, dims := 0x00070005, rawlen := 3, rawin := bytes [0x89, 0x50, 0x4E] }

/-- The 2 x 2 image of L1-6. -/
def square (cfg : Nat) : State :=
  request cfg 2 2 [0xFF, 0xFF, 0xFF, 0xFF, 0, 0, 0, 0xFF, 0xFF, 0xFF, 0xFF, 0xFF, 0, 0, 0, 0xFF]

/-- The 2 x 2 image as A1, every pixel encoded. -/
def squareDone (cfg : Nat) : State := after [.init, .encA1, .encA1, .encA1, .encA1] (square cfg)

/-! ### WellFormed (30 R82, R95) -/

theorem test_trunc_zero_bits_ill_formed : (Instr.trunc 132 0).wellFormed = false := by decide
theorem test_trunc_nine_bits_ill_formed : (Instr.trunc 132 9).wellFormed = false := by decide
theorem test_trunc_bounds_well_formed : (Instr.trunc 132 1).wellFormed = true ∧ (Instr.trunc 132 8).wellFormed = true := by decide

/-! ### Decoding: words written out from 30 R81 and R84 -/

theorem test_decode_control :
    decode 0b00000000000000000000000000000001 = .ok .init ∧ decode 0b00000000000000000000000000000010 = .ok .run ∧
    decode 0b00000000000000000000000000000011 = .ok .palb ∧ decode 0b00000000000000000000000000000100 = .ok .rows ∧
    decode 0b00000000000000000000000000000101 = .ok .qpix ∧ decode 0b00000000000000000000000000000111 = .ok .palr ∧
    decode 0b00000000000000000000000000001000 = .ok .hdr ∧ decode 0b00000000000000000000000000001001 = .ok .serb ∧
    decode 0b00000000000000000000000000001010 = .ok .sert := by decide

-- V-C6 to V-C9
theorem test_decode_trunc :
    decode 0b00000000010100001000010000000110 = .ok (.trunc 132 5) ∧ decode 0x005FFC06 = .ok (.trunc (-4) 5) ∧
    decode 0x0087FF06 = .ok (.trunc 2047 8) ∧ decode 0x00180006 = .ok (.trunc (-2048) 1) ∧
    decode 0x00008406 = .ok (.trunc 132 0) := by decide

-- V-C11
theorem test_decode_subc :
    decode 0b00000000000000000000000100001011 = .ok (.subc 1) ∧ decode 0x0000020B = .ok (.subc 2) ∧
    decode 0x0000030B = .ok (.subc 3) := by decide

-- V-C12
theorem test_decode_true_colour :
    decode 0b00000000000000000000000001000000 = .ok .encTc332 ∧ decode 0b00000000000000000000000001000001 = .ok .encTc565 ∧
    decode 0b00000000000000000000000001000010 = .ok .encTc565s ∧ decode 0b00000000000000000000000001000011 = .ok .encTc888 ∧
    decode 0b00000000000000000000000001001101 = .ok .encTc8888 ∧ decode 0b00000000000000000000000001001110 = .ok .encPl565 ∧
    decode 0b00000000000000000000000001001111 = .ok .encPla8 := by decide

theorem test_decode_bitmaps :
    decode 0b00000000000000000000000001000100 = .ok .encA1 ∧ decode 0b00000000000000000000000001000101 = .ok .encA2 ∧
    decode 0b00000000000000000000000001000110 = .ok .encA4 ∧ decode 0b00000000000000000000000001000111 = .ok .encA8 ∧
    decode 0b00000000000000000000000001001000 = .ok .encI1 ∧ decode 0b00000000000000000000000001001001 = .ok .encI2 ∧
    decode 0b00000000000000000000000001001010 = .ok .encI4 ∧ decode 0b00000000000000000000000001001011 = .ok .encI8 ∧
    decode 0b00000000000000000000000001001100 = .ok .encRaw := by decide

-- V-C14 to V-C16
theorem test_decode_refuses :
    decode 0x01008406 = .error .reservedBits ∧ decode 0x00000101 = .error .reservedBits ∧
    decode 0x0000040B = .error .reservedBits ∧ decode 0x00000011 = .error .illegalOpcode ∧
    decode 0x00000000 = .error .illegalOpcode ∧ decode 0x00000050 = .error .illegalOpcode := by decide

theorem test_table_word : decodeTableWord 32 0x00508406 = some (.trunc 132 5) ∧ decodeTableWord 32 0x50 = none := by decide

/-! ### Commands -/

-- 44 R170, the example of INIT
theorem test_init_a1 :
    gives (exec .init (square 0x44)) (fun t => t.status.word == 0x00010000 && t.l.w == 2 && t.l.h == 2) = true := by
  decide +kernel

-- V-F3: A1 binary without pixels is complete at once
theorem test_init_empty : gives (exec .init (request 0x44 0 0 [])) (fun t => t.status.word == 0x00011000) = true := by
  decide +kernel

-- V-F1: RAW binary
theorem test_run_raw_program :
    gives (exec .run (rawRequest 0x4C)) (fun t => t.pq == [0x4C, 0x08, 0x09] && t.status.busy) = true := by decide +kernel

-- V-F1: TRUE_COLOR text 1 x 1
theorem test_run_composite_program :
    gives (exec .run (request 0x10 1 1 pixel))
      (fun t => t.pq == [0x04, 0x05, 0x40, 0x10B, 0x04, 0x05, 0x41, 0x20B, 0x04, 0x05, 0x42, 0x30B, 0x04, 0x05, 0x43, 0x0A])
      = true := by decide +kernel

-- V-P1
theorem test_palb_region :
    gives (exec .palb vp1) (fun t => contents t.obuf.b0 ==
      [0, 0, 0xFF, 0xFF, 0, 0xFF, 0, 0xFF, 0xFF, 0, 0, 0xFF, 0, 0, 0, 0] && t.status.palv) = true := by decide +kernel

-- V-P3: three colours for I1
theorem test_palb_too_many :
    gives (exec .palb (after [.init] (indexedRow 0x08 2 [red, green, blue] [red]))) (fun t => t.status.word == 0x00000804)
      = true := by decide +kernel

-- V-P2
theorem test_palr_found :
    gives (exec .palr { vp1Built with arg := 0xFF00FF00 }) (fun t => t.res == 1 && t.status.word == 0x00010010) = true := by
  decide +kernel

theorem test_palr_miss :
    gives (exec .palr { vp1Built with arg := 0xFF00FFFF }) (fun t => t.status.word == 0x00000614) = true := by decide +kernel

-- 41 R112
theorem test_rows_clears :
    gives (exec .rows (after [.init, .qpix] (request 0x100 1 1 [100, 100, 100, 255])))
      (fun t => t.nerr == ⟨0, 0, 0⟩ && t.earr.r == [1, 1, 0]) = true := by decide +kernel

-- V-D3
theorem test_qpix_dithered :
    gives (exec .qpix (after [.init, .rows] (request 0x100 4 1 [100, 100, 100, 255])))
      (fun t => t.act == ⟨0x60, 0x60, 0x80⟩ && t.nerr == ⟨2, 2, -12⟩ && t.earr.r == [1, 1, 0, 0, 0, 0] &&
        t.earr.b == [-5, -9, -2, 0, 0, 0]) = true := by decide +kernel

-- V-D2
theorem test_qpix_plain :
    gives (exec .qpix (after [.init] (request 0x00 1 1 [100, 100, 100, 255])))
      (fun t => t.act == ⟨0x60, 0x60, 0x80⟩ && t.nerr == ⟨0, 0, 0⟩) = true := by decide +kernel

-- V-Q2, V-Q4
theorem test_trunc_tie_goes_down : gives (exec (.trunc 132 5) State.reset) (fun t => t.res == 0x80) = true := by decide +kernel
theorem test_trunc_clamps : gives (exec (.trunc 255 5) State.reset) (fun t => t.res == 0xF8) = true := by decide +kernel

-- L1-5, V-S1
theorem test_hdr_word :
    gives (exec .hdr (after [.init] (request 0x08 100 50 []))) (fun t => t.res == 0x06419007) = true := by decide +kernel

theorem test_hdr_too_wide :
    gives (exec .hdr (after [.init] (request 0x04 3000 1 []))) (fun t => t.status.word == 0x00000904) = true := by
  decide +kernel

-- PRG-1
theorem test_serb_artifact :
    gives (exec .serb (squareDone 0x44)) (fun t => t.ostream == [0x0B, 0x08, 0x40, 0x00, 0xC0, 0xC0] && t.outlen == 6 &&
      t.status.word == 0x00011002) = true := by decide +kernel

-- V-S3
theorem test_sert_artifact :
    gives (exec .sert (squareDone 0x04)) (fun t => t.outlen == 714 && t.status.word == 0x00011002) = true := by
  decide +kernel

theorem test_sert_body_line : bodyLines Params.default [0xC0, 0xC0] = ascii "  0xc0, 0xc0,\n" := by decide +kernel

-- V-F4
theorem test_subc_next :
    gives (exec (.subc 1) (after [.init, .qpix, .encTc332] (request 0x10 1 1 pixel)))
      (fun t => curpWord t.cur == 2 && t.status.word == 0x00011000) = true := by decide +kernel

theorem test_subc_skips :
    gives (exec (.subc 2) (after [.init, .qpix, .encTc332] (request 0x10 1 1 pixel))) (fun t => t.status.word == 0x00001904)
      = true := by decide +kernel

-- V-E1
theorem test_tc332 : gives (exec .encTc332 (quantized 0x20)) (fun t => contents t.obuf.b0 == [0x29, 0x78]) = true := by
  decide +kernel
theorem test_tc565 : gives (exec .encTc565 (quantized 0x21)) (fun t => contents t.obuf.b0 == [0xAB, 0x11, 0x78]) = true := by
  decide +kernel
theorem test_tc565_swapped :
    gives (exec .encTc565 (quantized 0xA1)) (fun t => contents t.obuf.b0 == [0x11, 0xAB, 0x78]) = true := by decide +kernel
theorem test_tc565s : gives (exec .encTc565s (quantized 0x82)) (fun t => contents t.obuf.b0 == [0x11, 0xAB]) = true := by
  decide +kernel
theorem test_tc888 : gives (exec .encTc888 (quantized 0x23)) (fun t => contents t.obuf.b0 == [0x56, 0x34, 0x12, 0x78]) = true := by
  decide +kernel

-- V-E2
theorem test_tc8888 : gives (exec .encTc8888 (quantized 0x851)) (fun t => contents t.obuf.b0 == [0x56, 0x34, 0x12, 0x78])
    = true := by decide +kernel
theorem test_tc8888_swapped : gives (exec .encTc8888 (quantized 0x8D1)) (fun t => contents t.obuf.b0 == [0x78, 0x12, 0x34, 0x56])
    = true := by decide +kernel

-- V-E5
theorem test_pl565 : gives (exec .encPl565 (quantized 0x0F)) (fun t => contents t.obuf.b0 == [0xAB, 0x11] && t.cur.pass)
    = true := by decide +kernel
theorem test_pla8 : gives (exec .encPla8 (after [.encPl565] (quantized 0x0F)))
    (fun t => contents t.obuf.b0 == [0xAB, 0x11, 0x78] && t.status.subdone == 1) = true := by decide +kernel

-- V-E3, the first fields
theorem test_a1_threshold :
    gives (exec .encA1 (after [.encA1, .encA1] (alphaRow 0x04 [0x00, 0x80, 0x81]))) (fun t => contents t.obuf.b0 == [0x20])
      = true := by decide +kernel
theorem test_a2 : gives (exec .encA2 (after [.encA2, .encA2] (alphaRow 0x05 [0x80, 0x81, 0xFF])))
    (fun t => contents t.obuf.b0 == [0xAC]) = true := by decide +kernel
theorem test_a4 : gives (exec .encA4 (after [.encA4, .encA4] (alphaRow 0x06 [0x00, 0x80, 0x81])))
    (fun t => contents t.obuf.b0 == [0x08, 0x80]) = true := by decide +kernel
theorem test_a8 : gives (exec .encA8 (after [.encA8, .encA8] (alphaRow 0x07 [0x00, 0x80, 0x81])))
    (fun t => contents t.obuf.b0 == [0x00, 0x80, 0x81]) = true := by decide +kernel

-- V-P1, V-P5
theorem test_i1 : gives (exec .encI1 (after [.init, .palb, .encI1] (indexedRow 0x08 2 [red, green] [red, green])))
    (fun t => (contents t.obuf.b0).drop 8 == [0x40]) = true := by decide +kernel
theorem test_i2 : gives (exec .encI2 (after [.encI2, .encI2] vp1Built)) (fun t => (contents t.obuf.b0).drop 16 == [0x18])
    = true := by decide +kernel
theorem test_i4 :
    gives (exec .encI4 (after [.init, .palb, .encI4] (indexedRow 0x0A 16 [red, green, blue] [red, green])))
      (fun t => (contents t.obuf.b0).drop 64 == [0x01]) = true := by decide +kernel
theorem test_i8 : gives (exec .encI8 i8Ready) (fun t => t.obuf.b0 == [(1024, 2)] && curWord t.cur == 1) = true := by
  decide +kernel
-- V-P3
theorem test_i1_miss :
    gives (exec .encI1 { after [.init, .palb] (indexedRow 0x08 2 [red, green] [red, green]) with remap := bytes [1, 2, 3, 4] })
      (fun t => t.status.word == 0x00000614) = true := by decide +kernel

-- V-E6
theorem test_raw : gives (exec .encRaw (after [.init] (rawRequest 0x0C)))
    (fun t => contents t.obuf.b0 == [0x89, 0x50, 0x4E] && curWord t.cur == 0 && t.status.subdone == 1) = true := by
  decide +kernel

-- 10 R47
theorem test_unwritten_input :
    (match exec .encA8 (after [.init] (request 0x07 1 1 [0, 0, 0])) with
      | .fault f => f == .unwrittenInput .raster 3
      | .next _ => false
      | .refused _ => false) = true := by decide +kernel

/-! ### Steps -/

theorem test_step_runs_placed_word :
    gives (step (State.reset.withFetchWord 32 0x00508406)) (fun t => t.res == 0x80 && t.agenda == []) = true := by
  decide +kernel

-- V-C13
theorem test_step_illegal_word :
    gives (step { State.reset with agenda := [.host (.writeReg 0x18 4 0x50)] }) (fun t => t.status.word == 0x00000904) = true := by
  decide +kernel

theorem test_step_register_read :
    gives (step { squareDone 0x44 with agenda := [.host (.readReg 0x28 4)] }) (fun t => t.hostData == some 0x00020000) = true := by
  decide +kernel

/-! ### States that meet the invariants -/

/-- `State.Inv` from a proposition that `decide` evaluates. -/
theorem inv_of {s : State}
    (h1 : s.raster.wf ∧ s.rawin.wf ∧ s.remap.wf ∧ s.obuf.b0.wf ∧ s.obuf.b1.wf ∧ s.obuf.b2.wf ∧ s.obuf.b3.wf)
    (h2 : s.cfg &&& 0xFFFFF000 = 0 ∧ s.instat &&& 0xFFFFFFFC = 0 ∧ s.pal.length = 256)
    (h3 : s.earr.r.length = s.l.w.toNat + 2 ∧ s.earr.g.length = s.l.w.toNat + 2 ∧ s.earr.b.length = s.l.w.toNat + 2)
    (h4 : (-112 ≤ s.nerr.r ∧ s.nerr.r ≤ 112) ∧ (-112 ≤ s.nerr.g ∧ s.nerr.g ≤ 112) ∧ (-112 ≤ s.nerr.b ∧ s.nerr.b ≤ 112))
    (h5 : (s.status.busy = false → s.pq = [] ∧ s.waiting = false) ∧
      (s.status.err = true → s.status.busy = false ∧ s.status.done = false ∧ s.status.initOk = false) ∧
      (s.status.err = false ↔ s.status.ecode = .none) ∧ (s.status.done = false → s.ostream = [] ∧ s.outlen = 0) ∧
      s.outlen = outlenOf s.ostream.length ∧ (s.status.done = true → 4 ≤ s.ostream.length ∧ 0 < s.outlen.toNat) ∧
      (s.status.done = true → s.status.initOk = true))
    (h6 : s.l.nsub = nSub s.l.fmt s.l.out ∧
      (s.l.out = true → isComposite s.l.fmt = true → 1 ≤ s.l.binsub.toNat ∧ s.l.binsub.toNat ≤ 4) ∧
      (s.l.out = true → (formatCode s.params s.l.fmt).isSome = true ∧ dimsFit s.l = true) ∧
      (s.waiting = true → s.status.initOk = true ∧ s.status.palv = false))
    (h7 : s.status.initOk = true →
      s.cur.sub.toNat < s.l.nsub ∧ (∀ i : BitVec 2, i.toNat < s.cur.sub.toNat → s.status.subDone i = true) ∧
      (∀ i : BitVec 2, s.cur.sub.toNat < i.toNat → s.status.subDone i = false) ∧
      (isRaw s.l.fmt = true → s.cur.x = 0 ∧ s.cur.y = 0 ∧ s.cur.pass = false) ∧
      (isRaw s.l.fmt = false →
        (s.status.subDone s.cur.sub = true →
          s.cur.x = 0 ∧ s.cur.y = s.l.h ∧ s.cur.pass = decide (nPass s.l.fmt = 2)) ∧
        (s.status.subDone s.cur.sub = false →
          s.cur.x.toNat < s.l.w.toNat ∧ s.cur.y.toNat < s.l.h.toNat ∧ (s.cur.pass = true → nPass s.l.fmt = 2))) ∧
      (s.status.actv = true → s.status.subDone s.cur.sub = false ∧ (currentEncoder s).any isTrueColour = true) ∧
      (s.status.palv = true → isIndexed s.l.fmt = true)) :
    s.Inv :=
  { memory := h1
    reserved := ⟨h2.1, h2.2.1⟩
    palette := h2.2.2
    earr := h3
    nerr := h4
    idle := h5.1
    error := h5.2.1
    ecode := h5.2.2.1
    noArtifact := h5.2.2.2.1
    outlen := h5.2.2.2.2.1
    artifact := h5.2.2.2.2.2.1
    doneInit := h5.2.2.2.2.2.2
    nsub := h6.1
    encoder := h6.2.1
    header := h6.2.2.1
    hold := h6.2.2.2
    converting := fun hi =>
      have h := h7 hi
      { subRange := h.1
        before := h.2.1
        after := h.2.2.1
        rawCursor := h.2.2.2.1
        pixelCursor := fun hr => by
          have h := h.2.2.2.2.1 hr
          unfold State.CursorOk
          cases hd : s.status.subDone s.cur.sub with
          | true => simpa using h.1 hd
          | false => simpa using h.2 hd
        actv := h.2.2.2.2.2.1
        palv := h.2.2.2.2.2.2 } }

/-- V-D3: a dithered row of four pixels, ROWS done, no pixel quantized. -/
def dithering : State := after [.init, .rows] (request 0x100 4 1 [100, 100, 100, 255])

theorem inv_reset : State.reset.Inv := by
  apply inv_of <;> decide +kernel

theorem inv_dithering : dithering.Inv := by
  apply inv_of <;> decide +kernel

theorem inv_built : vp1Built.Inv := by
  apply inv_of <;> decide +kernel

theorem inv_squareDone : (squareDone 0x44).Inv := by
  apply inv_of <;> decide +kernel

theorem inv_squareText : (squareDone 0x04).Inv := by
  apply inv_of <;> decide +kernel

theorem ditherInv_dithering : dithering.DitherInv := by
  intro _ _ _ _
  have h : ∀ e : List Int, e = [0, 0, 0, 0, 0, 0] → EarrBounded 4 0 e := by
    rintro e rfl i h1 h2
    interval_cases i <;> decide
  exact ⟨h _ (by decide +kernel), h _ (by decide +kernel), h _ (by decide +kernel)⟩

theorem bufferInv_squareDone : (squareDone 0x44).BufferInv := by
  intro _
  have h0 : (squareDone 0x44).cur.sub = 0 := by decide +kernel
  refine ⟨fun i hi => ?_, ?_, fun i hi => ?_, fun h => ?_⟩
  · rw [h0] at hi; exact absurd hi (Nat.not_lt_zero _)
  · unfold Memory.Exact; decide +kernel
  · revert i; decide +kernel
  · revert h; decide +kernel

theorem bufferInv_squareText : (squareDone 0x04).BufferInv := by
  intro _
  have h0 : (squareDone 0x04).cur.sub = 0 := by decide +kernel
  refine ⟨fun i hi => ?_, ?_, fun i hi => ?_, fun h => ?_⟩
  · rw [h0] at hi; exact absurd hi (Nat.not_lt_zero _)
  · unfold Memory.Exact; decide +kernel
  · revert i; decide +kernel
  · revert h; decide +kernel

/-! ### The hypotheses of the statements are met -/

theorem witness_EncodeReadsBackDecode : decode 0x00508406 = .ok (.trunc 132 5) := by decide

theorem witness_IllegalWordRaises :
    ∃ s : State, s.agenda = [.host (.writeReg 0x18 4 0x00000101)] ∧ s.status.busy = false ∧ s.status.err = false ∧
      decode 0x00000101 = .error .reservedBits :=
  ⟨{ State.reset with agenda := [.host (.writeReg 0x18 4 0x00000101)] }, rfl, rfl, rfl, by decide⟩

theorem witness_HostWordRunsCommand :
    ∃ s : State, s.status.busy = false ∧ decode 0x00000001 = .ok .init ∧ s.agenda = [.host (.writeReg 0x18 4 0x00000001)] :=
  ⟨{ State.reset with agenda := [.host (.writeReg 0x18 4 0x00000001)] }, rfl, by decide, rfl⟩

theorem witness_ProgramQueueRunsCommand :
    (after [.run] (square 0x44)).agenda = [] ∧ (after [.run] (square 0x44)).status.busy = true ∧
      (after [.run] (square 0x44)).waiting = false ∧
      (after [.run] (square 0x44)).pq = 0x44 :: [0x44, 0x44, 0x44, 0x08, 0x09] ∧ decode 0x44 = .ok .encA1 := by decide +kernel

theorem witness_IdleHeldAndReset :
    State.reset.agenda = [] ∧ State.reset.status.busy = false ∧
      (after [.palb] { vp1 with collabDefers := true }).agenda = [] ∧
      (after [.palb] { vp1 with collabDefers := true }).waiting = true ∧
      ({ vp1 with agenda := [.reset] } : State).agenda = .reset :: [] := by decide +kernel

/-- The error state after `ROWS` without INIT (V-F4). -/
def failed : State := after [.rows] State.reset

theorem witness_ErrorStateIgnoresCommands :
    failed.status.err = true ∧ failed.status.busy = false ∧ (0x00000406 : Word).toNat % 256 ≠ 1 ∧
      (0x00000406 : Word).toNat % 256 ≠ 2 := by decide +kernel

theorem witness_OnlyInitRunResetLeaveError :
    failed.status.err = true ∧ failed.status.busy = false ∧ failed.waiting = false ∧
      gives (step { failed with agenda := [.reset] }) (fun t => !t.status.err) = true ∧
      gives (step { failed with agenda := [.host (.writeReg 0x18 4 1)] }) (fun t => !t.status.err) = true := by decide +kernel

theorem witness_NoInitNoCommand :
    State.reset.status.err = false ∧ State.reset.status.initOk = false ∧ Instr.rows ≠ .init ∧ Instr.rows ≠ .run ∧
      ∀ v b, Instr.rows ≠ .trunc v b := by
  refine ⟨rfl, rfl, by decide, by decide, fun _ _ => ?_⟩
  simp

theorem witness_EncoderOutOfTurnRaises :
    ((squareDone 0x44).status.err = false ∧ (squareDone 0x44).status.subDone (squareDone 0x44).cur.sub = true) ∧
    ((quantized 0x20).status.err = false ∧ currentEncoder (quantized 0x20) ≠ some .tc565) ∧
    ((dithering).status.err = false ∧ dithering.status.actv = false) ∧ (vp1.status.err = false ∧ vp1.status.palv = false) := by
  decide +kernel

theorem witness_OutOfTurnRaises :
    ((squareDone 0x44).status.err = false ∧ (squareDone 0x44).status.subDone (squareDone 0x44).cur.sub = true ∧
      (squareDone 0x44).l.nsub ≠ 4) ∧
    (vp1Built.status.err = false ∧ vp1Built.status.palv = true ∧
      ∀ e ∈ [Encoder.tc332, .tc565, .tc565s, .tc888, .tc8888, .pl565], currentEncoder vp1Built ≠ some e) ∧
    ((quantized 0x20).status.err = false ∧ (quantized 0x20).status.actv = true ∧
      ∀ e ∈ [Encoder.i1, .i2, .i4, .i8], currentEncoder (quantized 0x20) ≠ some e) ∧
    (vp1.status.err = false ∧ vp1.status.palv = false ∧ vp1.status.subDone vp1.cur.sub = false ∧
      (2 : BitVec 2).toNat ≠ vp1.cur.sub.toNat + 1) := by decide +kernel

theorem witness_SerializersOutOfTurnRaise :
    (dithering.status.err = false ∧ formatCode dithering.params dithering.l.fmt = none ∧
      (0 : BitVec 2).toNat < nSub dithering.l.fmt dithering.l.out ∧ dithering.status.subDone 0 = false) ∧
    ((after [.init] (request 0x04 2048 1 [])).status.err = false ∧ 2047 < (after [.init] (request 0x04 2048 1 [])).l.w.toNat) ∧
    ((after [.init] (request 0x04 1 2048 [])).status.err = false ∧ 2047 < (after [.init] (request 0x04 1 2048 [])).l.h.toNat) ∧
    (vp1.status.err = false ∧ isIndexed vp1.l.fmt = true ∧ vp1.status.palv = false) := by decide +kernel

/-- A complete text request and a complete binary one, for the serializer of the other kind. -/
theorem witness_SerializersOutOfTurnRaise_kind :
    ((squareDone 0x04).Inv ∧ (squareDone 0x04).BufferInv ∧ (squareDone 0x04).status.err = false ∧
      (squareDone 0x04).l.out = false) ∧
    ((squareDone 0x44).Inv ∧ (squareDone 0x44).BufferInv ∧ (squareDone 0x44).status.err = false ∧
      (squareDone 0x44).l.out = true) :=
  ⟨⟨inv_squareText, bufferInv_squareText, by decide +kernel⟩, inv_squareDone, bufferInv_squareDone, by decide +kernel⟩

/-- Each clause of `InitErrorsInOrder`, at the bounds of its range. -/
theorem witness_InitErrorsInOrder :
    (0x13 ≤ (request 0x13 1 1 []).cfg.toNat % 32 ∧ 0x13 ≤ (request 0x1F 1 1 []).cfg.toNat % 32) ∧
    ((request 0xA50 1 1 []).cfg.toNat / 512 % 8 = 5 ∧ (request 0xA50 1 1 []).cfg.toNat % 32 = 0x10 ∧
      (request 0xE52 1 1 []).cfg.toNat / 512 % 8 = 7 ∧ (request 0xE52 1 1 []).cfg.toNat % 32 = 0x12) ∧
    ((request 0x051 1 1 []).cfg.toNat / 512 % 8 = 0 ∧ (request 0x051 1 1 []).cfg.toNat / 64 % 2 = 1) ∧
    ((request 0x040 1 1 []).cfg.toNat / 64 % 2 = 1 ∧
      (fmtOfCode (cfgFmt (request 0x040 1 1 []).cfg)).bind (formatCode Params.default) = none) ∧
    (({ request 0x04 1 1 [] with instat := 1 } : State).instat.toNat % 2 = 1 ∧ ¬ (0x0C ≤ (0x04 : Nat) ∧ (0x04 : Nat) ≤ 0x0E)) ∧
    ((request 0x44 2048 1 []).dims.toNat % 65536 = 2048 ∧ (request 0x44 1 2048 []).dims.toNat / 65536 = 2048) := by
  decide +kernel

/-- A fault, whose byte nothing has written. -/
theorem witness_OnlyUnwrittenBytesFault :
    ∃ f, exec .encA8 (after [.init] (request 0x07 1 1 [0, 0, 0])) = .fault f := ⟨.unwrittenInput .raster 3, by rfl⟩

/-- A request of two pixels with these samples, INIT done. -/
def pairRow (cfg : Nat) (samples : List Nat) : State := after [.init] (request cfg 2 1 samples)

/-- V-E6 with the last byte of the source missing. -/
def rawShort : State := after [.init] { rawRequest 0x4C with rawin := bytes [0x89, 0x50] }

/-- The first and the last byte a command reads, for each clause of the converse. -/
theorem witness_OnlyUnwrittenBytesFault_converse :
    (MayEncode .tc332 (pairRow 0x00 []) ∧ (pairRow 0x00 []).status.actv = false ∧ FirstUnwritten (pairRow 0x00 []).raster 0 0 ∧ MayEncode .tc332 (pairRow 0x00 [1, 2]) ∧
      FirstUnwritten (pairRow 0x00 [1, 2]).raster 0 2) ∧
    (MayEncode .a1 (after [.init] (request 0x04 1 1 [])) ∧
      Memory.read (after [.init] (request 0x04 1 1 [])).raster 3 = none) ∧
    (MayEncode .tc332 { quantized 0x20 with raster := [] } ∧ (quantized 0x20).status.actv = true ∧ (quantized 0x20).l.fmt ∈ [Fmt.tc332, .tc565, .tc565s, .tc888] ∧
      (quantized 0x20).l.alpha = true) ∧
    (MayEncode .i8 { i8Ready with remap := [] } ∧ i8Ready.status.palv = true ∧
      FirstUnwritten { i8Ready with remap := [] }.remap 0 0 ∧ MayEncode .i8 { i8Ready with remap := bytes [1, 2, 3] } ∧
      FirstUnwritten { i8Ready with remap := bytes [1, 2, 3] }.remap 0 3) ∧
    (MayEncode .raw rawShort ∧ 2 < rawShort.l.rawlen.toNat ∧ FirstUnwritten rawShort.rawin 0 2) ∧
    ((pairRow 0x08 []).status.err = false ∧ (pairRow 0x08 []).status.initOk = true ∧ currentEncoder (pairRow 0x08 []) = some .i1 ∧ (pairRow 0x08 []).status.palv = false ∧
      FirstUnwritten (pairRow 0x08 []).raster 0 0 ∧ FirstUnwritten (pairRow 0x08 [0, 1, 2, 3, 4, 5, 6]).raster 0 7) := by
  unfold MayEncode FirstUnwritten
  refine ⟨?_, ?_, ?_, ?_, ?_, ?_⟩ <;> decide +kernel

theorem witness_InitStartsConversion :
    fmtOfCode (cfgFmt (square 0x44).cfg) = some .a1 ∧
    (cfgOut (square 0x44).cfg = true → isComposite .a1 = true →
      1 ≤ (cfgBinsub (square 0x44).cfg).toNat ∧ (cfgBinsub (square 0x44).cfg).toNat ≤ 4) ∧
    (cfgOut (square 0x44).cfg = true → formatCode (square 0x44).params .a1 ≠ none) ∧
    ((square 0x44).instat.getLsbD 0 = true → isRaw .a1 = true) ∧
    ((2 : BitVec 16), (2 : BitVec 16), false) = ((square 0x44).dims.extractLsb' 0 16, (square 0x44).dims.extractLsb' 16 16, false) ∧
    (square 0x44).instat.getLsbD 0 = false := by decide +kernel

theorem witness_RunIsInitThenProgram :
    gives (exec .init (square 0x44)) (fun t => !t.status.err) = true ∧
    gives (exec .init (request 0x13 1 1 [])) (fun t => t.status.err) = true ∧
    fmtOfCode (cfgFmt (square 0x44).cfg) = some .a1 ∧ (square 0x44).instat.getLsbD 0 = false ∧
    formatCode (square 0x44).params .a1 ≠ none ∧ isComposite .a1 = false ∧
    (dimsW (square 0x44).dims).toNat ≤ 2047 ∧ (dimsH (square 0x44).dims).toNat ≤ 2047 := by decide +kernel

/-- A composite text request, sub-conversion 0 complete (V-F4). -/
def composite : State := after [.init, .qpix, .encTc332] (request 0x10 1 1 pixel)

theorem witness_SubcStartsNext :
    composite.status.err = false ∧ composite.status.initOk = true ∧ composite.l.nsub = 4 ∧
      (1 : BitVec 2).toNat = composite.cur.sub.toNat + 1 ∧ composite.status.subDone composite.cur.sub = true := by decide +kernel

/-- One request for each clause: concrete true colour, alpha, indexed, raw, planar, composite binary and composite text. -/
theorem witness_BitmapProgram :
    ((pairRow 0x01 []).l.fmt, Encoder.tc565) ∈ [(Fmt.tc332, Encoder.tc332), (.tc565, .tc565), (.tc565s, .tc565s), (.tc888, .tc888)] ∧
    ((pairRow 0x44 []).l.fmt, Encoder.a1) ∈ [(Fmt.a1, Encoder.a1), (.a2, .a2), (.a4, .a4), (.a8, .a8)] ∧
    ((pairRow 0x0B []).l.fmt, Encoder.i8) ∈ [(Fmt.i1, Encoder.i1), (.i2, .i2), (.i4, .i4), (.i8, .i8)] ∧
    (pairRow 0x0E []).l.fmt = .rawChroma ∧ (pairRow 0x0F []).l.fmt = .planar565a8 ∧
    ((pairRow 0x850 []).l.fmt = .trueColor ∧ (pairRow 0x850 []).l.out = true ∧ (pairRow 0x850 []).l.binsub.toNat = 4) ∧
    ((pairRow 0x10 []).l.fmt = .trueColor ∧ (pairRow 0x10 []).l.out = false) := by decide +kernel

theorem witness_InitForgetsPrevious :
    (squareDone 0x44).cfg = (square 0x44).cfg ∧ (squareDone 0x44).dims = (square 0x44).dims ∧
      (squareDone 0x44).odims = (square 0x44).odims ∧ (squareDone 0x44).instat = (square 0x44).instat ∧
      (squareDone 0x44).rawlen = (square 0x44).rawlen ∧ (squareDone 0x44).params = (square 0x44).params ∧
      gives (exec .init (square 0x44)) (fun t => !t.status.err) = true ∧
      gives (exec .init (squareDone 0x44)) (fun t => !t.status.err) = true := by decide +kernel

theorem witness_LeftoversStayHidden : vp1Built.Inv ∧ SameButLeftovers vp1Built { vp1Built with res := 7 } :=
  ⟨inv_built, rfl, fun _ => rfl, fun _ _ _ => rfl⟩

/-- Before PALB the palettes may differ. -/
theorem witness_LeftoversStayHidden_unbuilt :
    State.reset.Inv ∧ SameButLeftovers State.reset { State.reset with pal := List.replicate 256 red } :=
  ⟨inv_reset, rfl, fun h => absurd h (by decide), fun h => absurd h (by decide)⟩

theorem witness_WhoWritesWhat : ∃ t, exec .rows dithering = .next t ∧ Instr.rows ≠ .init ∧ Instr.rows ≠ .run ∧
    Instr.rows ≠ .palb ∧ Instr.rows ≠ .serb ∧ Instr.rows ≠ .sert := ⟨_, rfl, by decide⟩

theorem witness_TruncRoundsAndClamps :
    State.reset.status.err = false ∧ (0 : BitVec 4).toNat = 0 ∧ 1 ≤ (1 : BitVec 4).toNat ∧ (8 : BitVec 4).toNat ≤ 8 ∧
      9 ≤ (9 : BitVec 4).toNat := by decide

theorem witness_RowsClearsCarriedError :
    dithering.status.err = false ∧ dithering.status.initOk = true ∧ State.reset.status.err = false ∧
      State.reset.status.initOk = false := by decide +kernel

theorem witness_QpixWithoutDither :
    let s := after [.init] (request 0x00 1 1 pixel)
    s.status.err = false ∧ s.status.initOk = true ∧ s.status.subDone s.cur.sub = false ∧ s.status.actv = false ∧
      currentEncoder s = some .tc332 ∧ depths .tc332 = some ⟨3, 3, 2⟩ ∧ s.l.dith = false ∧
      ColourAtCursor s ⟨0x12, 0x34, 0x56⟩ := by
  unfold ColourAtCursor
  decide +kernel

theorem witness_QpixWithDither :
    dithering.status.err = false ∧ dithering.status.initOk = true ∧ dithering.status.subDone dithering.cur.sub = false ∧
      dithering.status.actv = false ∧ currentEncoder dithering = some .tc332 ∧ depths .tc332 = some ⟨3, 3, 2⟩ ∧
      dithering.l.dith = true ∧ ColourAtCursor dithering ⟨100, 100, 100⟩ := by
  unfold ColourAtCursor
  decide +kernel

theorem witness_StepKeepsDitherBounds :
    dithering.Inv ∧ dithering.DitherInv ∧ ∃ t, step dithering = .next t := ⟨inv_dithering, ditherInv_dithering, _, rfl⟩

theorem witness_WorkingValueInRange :
    dithering.Inv ∧ dithering.DitherInv ∧ dithering.status.initOk = true ∧ dithering.l.dith = true ∧
      dithering.status.subDone dithering.cur.sub = false ∧ dithering.status.actv = false ∧
      (currentEncoder dithering).any isTrueColour = true :=
  ⟨inv_dithering, ditherInv_dithering, by decide +kernel⟩

/-- V-P1 with the image as RASTER holds it. -/
theorem witness_PalbBuildsPalette :
    let image := [[red, green, blue, green, red]]
    vp1.status.err = false ∧ vp1.status.initOk = true ∧ currentEncoder vp1 = some .i2 ∧ indexBits .i2 = some 2 ∧
      vp1.status.palv = false ∧ vp1.collabDefers = false ∧ ImageInRaster vp1 image ∧
      (collaborator vp1 { width := vp1.l.w.toNat, image := image, size := 2 ^ 2 }).colors.length ≤ 2 ^ 2 ∧
      (collaborator vp1 { width := vp1.l.w.toNat, image := image, size := 2 ^ 2 }).remap.length = vp1.l.h.toNat ∧
      ∀ row ∈ (collaborator vp1 { width := vp1.l.w.toNat, image := image, size := 2 ^ 2 }).remap, row.length = vp1.l.w.toNat := by
  unfold ImageInRaster
  decide +kernel

/-- Too many colours, too few rows, a row of another length. -/
theorem witness_PalbRejectsBadAnswer :
    let q : PalRequest := { width := vp1.l.w.toNat, image := [[red, green, blue, green, red]], size := 2 ^ 2 }
    ImageInRaster vp1 q.image ∧
    2 ^ 2 < (collaborator { vp1 with palq := [(q, { colors := [red, red, red, red, red], remap := q.image })] } q).colors.length ∧
    (collaborator { vp1 with palq := [(q, { colors := [], remap := [] })] } q).remap.length ≠ vp1.l.h.toNat ∧
    ∃ row ∈ (collaborator { vp1 with palq := [(q, { colors := [], remap := [[red]] })] } q).remap,
      row.length ≠ vp1.l.w.toNat := by
  unfold ImageInRaster
  decide +kernel

/-- A good answer and one that breaks the contract, to a PALB of the host and to one inside a RUN. -/
theorem witness_HeldPalbIsPalbLater :
    let s := { vp1 with collabDefers := true }
    let bad := { s with palq := vp1.palq.map fun (p : PalRequest × PalAnswer) => (p.1, { colors := [], remap := [] }) }
    (s.waiting = false ∧ s.agenda = [] ∧ s.collabDefers = true ∧ s.status.err = false ∧ s.status.palv = false ∧
      s.status.busy = false ∧ decode 0x00000003 = .ok .palb ∧
      gives (exec .palb { s with collabDefers := false }) (fun t => t.status.palv) = true) ∧
    gives (exec .palb { bad with collabDefers := false }) (fun t => t.status.ecode == .ieCollaborator) = true ∧
    gives (exec .palb { s with collabDefers := false, pq := [0x49], status := { s.status with busy := true } })
      (fun t => t.status.palv && t.status.busy && t.pq == [0x49]) = true := by decide +kernel

/-- The answer inside a RUN keeps BUSY while commands remain. -/
theorem test_answer_inside_run :
    gives (step { vp1 with agenda := [.collabAnswer], waiting := true, pq := [0x49], status := { vp1.status with busy := true } })
      (fun t => t.status.palv && t.status.busy && !t.waiting && t.pq == [0x49]) = true := by decide +kernel

theorem witness_PalrFindsLowestIndex :
    let s := { vp1Built with arg := 0xFF00FF00 }
    s.status.err = false ∧ s.status.initOk = true ∧ currentEncoder s = some .i2 ∧ indexBits .i2 = some 2 ∧
      s.status.palv = true ∧ s.pal.length = 256 ∧
      green = { r := s.arg.extractLsb' 0 8, g := s.arg.extractLsb' 8 8, b := s.arg.extractLsb' 16 8,
                a := s.arg.extractLsb' 24 8 } ∧
      s.pal[1]? = some green ∧ (∀ j < 1, s.pal[j]? ≠ some green) ∧
      ∀ i < 2 ^ 2, s.pal[i]? ≠ some { r := 0xFF, g := 0xFF, b := 0, a := 0xFF } := by decide +kernel

theorem witness_Tc332AppendsPixel :
    MayEncode .tc332 (quantized 0x20) ∧ (quantized 0x20).status.actv = true ∧ AlphaBytes (quantized 0x20) [0x78] := by
  refine ⟨?_, by decide +kernel, .inr ⟨by decide +kernel, 0x78, rfl, by decide +kernel⟩⟩
  unfold MayEncode
  decide +kernel

theorem witness_Encoders565AppendPixel :
    (MayEncode .tc565 (quantized 0x21) ∧ (quantized 0x21).status.actv = true ∧ AlphaBytes (quantized 0x21) [0x78]) ∧
    (MayEncode .tc565s (quantized 0x02) ∧ (quantized 0x02).status.actv = true ∧ AlphaBytes (quantized 0x02) []) ∧
    MayEncode .pl565 (quantized 0x0F) ∧ (quantized 0x0F).status.actv = true := by
  refine ⟨⟨?_, by decide +kernel, .inr ⟨by decide +kernel, 0x78, rfl, by decide +kernel⟩⟩,
    ⟨?_, by decide +kernel, .inl ⟨by decide +kernel, rfl⟩⟩, ?_, by decide +kernel⟩ <;>
  · unfold MayEncode
    decide +kernel

theorem witness_Encoders888AppendPixel :
    (MayEncode .tc888 (quantized 0x03) ∧ (quantized 0x03).status.actv = true ∧ AlphaBytes (quantized 0x03) []) ∧
    (MayEncode .tc8888 (quantized 0x8D1) ∧ (quantized 0x8D1).status.actv = true ∧ AlphaBytes (quantized 0x8D1) [0x78]) := by
  refine ⟨⟨?_, by decide +kernel, .inl ⟨by decide +kernel, rfl⟩⟩,
    ⟨?_, by decide +kernel, .inr ⟨by decide +kernel, 0x78, rfl, by decide +kernel⟩⟩⟩ <;>
  · unfold MayEncode
    decide +kernel

theorem witness_Pla8AppendsAlpha :
    let s := after [.encPl565] (quantized 0x0F)
    MayEncode .pla8 s ∧ Memory.read s.raster (4 * (s.l.w.toNat * s.cur.y.toNat + s.cur.x.toNat) + 3) = some 0x78 := by
  unfold MayEncode
  decide +kernel

theorem witness_AlphaEncodersPlaceField :
    Memory.read (alphaRow 0x04 [0x81]).raster (4 * ((alphaRow 0x04 [0x81]).l.w.toNat * 0 + 0) + 3) = some 0x81 ∧
    MayEncode .a1 (alphaRow 0x04 [0x81]) ∧ MayEncode .a2 (alphaRow 0x05 [0x81]) ∧ MayEncode .a4 (alphaRow 0x06 [0x81]) ∧
    MayEncode .a8 (alphaRow 0x07 [0x81]) := by
  unfold MayEncode
  decide +kernel

/-- An indexed conversion of one row blue, red, its palette built, the palette region left out. -/
def indexed (cfg : Nat) : State :=
  let s := after [.init] (request cfg 2 1 [])
  { s with
    pal := paletteOf [red, blue], remap := bytes [0, 0, 0xFF, 0xFF, 0xFF, 0, 0, 0xFF]
    status := { s.status with palv := true } }

theorem witness_IndexedEncodersPlaceIndex :
    ((indexed 0x08).status.palv = true ∧ Memory.read (indexed 0x08).remap 0 = some blue.r ∧
      Memory.read (indexed 0x08).remap 1 = some blue.g ∧ Memory.read (indexed 0x08).remap 2 = some blue.b ∧
      Memory.read (indexed 0x08).remap 3 = some blue.a ∧ (indexed 0x08).cur.x = 0 ∧ (indexed 0x08).cur.y = 0 ∧
      (indexed 0x08).pal[1]? = some blue ∧ ∀ j < 1, (indexed 0x08).pal[j]? ≠ some blue) ∧
    MayEncode .i1 (indexed 0x08) ∧ MayEncode .i2 (indexed 0x09) ∧ MayEncode .i4 (indexed 0x0A) ∧
    MayEncode .i8 (indexed 0x0B) := by
  unfold MayEncode
  decide +kernel

theorem witness_IndexedEncoderMissRaises :
    let s := { indexed 0x08 with pal := paletteOf [red, green] }
    indexBits .i1 = some 1 ∧ MayEncode .i1 s ∧ s.status.palv = true ∧ s.cur.x = 0 ∧ s.cur.y = 0 ∧
      Memory.read s.remap 0 = some blue.r ∧ Memory.read s.remap 1 = some blue.g ∧ Memory.read s.remap 2 = some blue.b ∧
      Memory.read s.remap 3 = some blue.a ∧ ∀ i < 2 ^ 1, s.pal[i]? ≠ some blue := by
  unfold MayEncode
  decide +kernel

/-- Each clause: inside a row, at the end of a row, at the end of the first pass, at the end. -/
theorem witness_EncodersAdvanceCursor :
    let s := after [.init] (square 0x44)
    let p := quantized 0x0F
    (Encoder.a1 ≠ .raw ∧ s.status.err = false ∧ gives (exec .encA1 s) (fun t => !t.status.err) = true ∧
      s.cur.x.toNat + 1 < s.l.w.toNat ∧ s.cur.y.toNat < s.l.h.toNat) ∧
    ((after [.encA1] s).cur.x.toNat + 1 = s.l.w.toNat ∧ (after [.encA1] s).cur.y.toNat + 1 < s.l.h.toNat) ∧
    (gives (exec .encPl565 p) (fun t => !t.status.err) = true ∧ p.l.fmt = .planar565a8 ∧ p.cur.pass = false ∧
      p.cur.x.toNat + 1 = p.l.w.toNat ∧ p.cur.y.toNat + 1 = p.l.h.toNat) ∧
    ((after [.encPl565] p).cur.pass = true ∧ (after [.encPl565] p).cur.x.toNat + 1 = p.l.w.toNat ∧
      (after [.encPl565] p).cur.y.toNat + 1 = p.l.h.toNat) := by decide +kernel

theorem witness_RawCopiesSource :
    let s := after [.init] (rawRequest 0x4C)
    MayEncode .raw s ∧ ∀ j < s.l.rawlen.toNat, Memory.read s.rawin j ≠ none := by
  unfold MayEncode
  decide +kernel

/-- The largest dimensions of a header (V-S1). -/
theorem witness_HdrWritesHeaderWord :
    let s := after [.init] (request 0x47 2047 2047 [])
    s.status.err = false ∧ s.status.initOk = true ∧ formatCode s.params s.l.fmt = some 14 ∧ s.l.w.toNat ≤ 2047 ∧
      s.l.h.toNat ≤ 2047 := by decide +kernel

theorem witness_SerbWritesArtifact :
    let s := squareDone 0x44
    s.status.err = false ∧ s.status.initOk = true ∧ s.l.out = true ∧ s.status.subDone 0 = true ∧
      (isIndexed s.l.fmt = true → s.status.palv = true) ∧ formatCode s.params s.l.fmt = some 11 ∧ s.l.w.toNat ≤ 2047 ∧
      s.l.h.toNat ≤ 2047 ∧ expLen s.l 0 = some 2 ∧ Memory.len s.obuf.b0 = 2 ∧ ([0xC0, 0xC0] : List Byte).length = 2 ∧
      ∀ j < 2, Memory.read s.obuf.b0 j = ([0xC0, 0xC0] : List Byte)[j]? := by decide +kernel

theorem witness_SertWritesArtifact :
    let s := squareDone 0x04
    let bodies : List (List Byte) := [[0xC0, 0xC0]]
    s.status.err = false ∧ s.status.initOk = true ∧ s.l.out = false ∧ bodies.length = nSub s.l.fmt s.l.out ∧
      (∀ i : BitVec 2, i.toNat < bodies.length →
        s.status.subDone i = true ∧ expLen s.l i = some (bodies.getD i.toNat []).length ∧
          Memory.len (s.obuf.get i) = (bodies.getD i.toNat []).length ∧
          ∀ j < (bodies.getD i.toNat []).length, Memory.read (s.obuf.get i) j = (bodies.getD i.toNat [])[j]?) ∧
      (isIndexed s.l.fmt = true → s.status.palv = true) ∧ (textArtifact s.params s.l bodies).length < 2 ^ 32 := by
  decide +kernel

/-- A buffer of another length, and one with a hole. -/
theorem witness_BadBufferRaises :
    let s := { squareDone 0x44 with obuf := ⟨[(0, 1)], [], [], []⟩ }
    let u := { squareDone 0x44 with obuf := ⟨[(1, 1)], [], [], []⟩ }
    s.status.err = false ∧ s.status.initOk = true ∧
      (∀ j : BitVec 2, j.toNat < nSub s.l.fmt s.l.out → s.status.subDone j = true) ∧
      (isIndexed s.l.fmt = true → s.status.palv = true) ∧ (0 : BitVec 2).toNat < nSub s.l.fmt s.l.out ∧
      expLen s.l 0 = some 2 ∧ Memory.len (s.obuf.get 0) ≠ 2 ∧ Memory.len (u.obuf.get 0) = 2 ∧
      ∃ p < 2, Memory.read (u.obuf.get 0) p = none := by decide +kernel

theorem witness_TextIsPrintableAscii :
    (∀ b ∈ Params.default.name, 0x20 ≤ b.toNat ∧ b.toNat ≤ 0x7E) ∧ Params.default.cfNames = [] := by decide

theorem witness_BodyRowsAreFull : 0 < Params.default.textWrap ∧ 0 < 1 := by decide

theorem witness_StepKeepsBuffersExact :
    (squareDone 0x44).Inv ∧ (squareDone 0x44).BufferInv ∧ ∃ t, step (squareDone 0x44) = .next t :=
  ⟨inv_squareDone, bufferInv_squareDone, _, rfl⟩

theorem witness_SerializersNeverRaiseIndexRange :
    (squareDone 0x44).Inv ∧ (squareDone 0x44).BufferInv ∧ (squareDone 0x44).status.err = false ∧
      gives (exec .serb (squareDone 0x44)) (fun _ => true) = true ∧ gives (exec .sert (squareDone 0x44)) (fun _ => true) = true :=
  ⟨inv_squareDone, bufferInv_squareDone, by decide +kernel⟩

theorem witness_RawRunGivesSource :
    let s := rawRequest 0x4C
    s.agenda = [] ∧ s.status.busy = false ∧ s.waiting = false ∧ fmtOfCode (cfgFmt s.cfg) = some .raw ∧ isRaw .raw = true ∧
      cfgOut s.cfg = true ∧ formatCode s.params .raw = some 1 ∧ s.instat.getLsbD 0 = false ∧ (dimsW s.dims).toNat ≤ 2047 ∧
      (dimsH s.dims).toNat ≤ 2047 ∧ ([0x89, 0x50, 0x4E] : List Byte).length = s.rawlen.toNat ∧
      ∀ j < 3, Memory.read s.rawin j = ([0x89, 0x50, 0x4E] : List Byte)[j]? := by decide +kernel

/-- The first and the last word of the window, and STATUS after the artifact of PRG-1. -/
theorem witness_RegisterReads :
    0 < 64 ∧ 63 < 64 ∧ statusNumber (after [.serb] (squareDone 0x44)).status = 0x00011002 ∧
      ∃ s : State, s.agenda = [.host (.readReg (4 * 63) 4)] :=
  ⟨by decide, by decide, by decide +kernel, { State.reset with agenda := [.host (.readReg (4 * 63) 4)] }, rfl⟩

theorem witness_RegisterWrites :
    63 < 64 ∧ 63 ≠ 6 ∧ 0 ≠ 6 ∧ ∃ s : State, s.status.busy = false ∧ s.agenda = [.host (.writeReg (4 * 63) 4 0xFFFFFFFF)] :=
  ⟨by decide, by decide, by decide, { State.reset with agenda := [.host (.writeReg (4 * 63) 4 0xFFFFFFFF)] }, rfl, rfl⟩

theorem witness_HostDutiesRefused :
    ((after [.run] (square 0x44)).status.busy = true ∧ 11 < 12) ∧
    ((squareDone 0x44).status.initOk = true ∧ (squareDone 0x44).status.done = false ∧
      (squareDone 0x44).outlen.toNat ≤ 0) ∧ (2 ≠ 4 ∧ 2 % 4 ≠ 0) ∧
    (∃ s : State, s.agenda = [.host (.readReg 0 2)]) ∧ ∃ s : State, s.agenda = [.host (.readOstream 0)] := by
  refine ⟨by decide +kernel, by decide +kernel, by decide, ⟨{ State.reset with agenda := [.host (.readReg 0 2)] }, rfl⟩,
    ⟨{ State.reset with agenda := [.host (.readOstream 0)] }, rfl⟩⟩

theorem witness_HostMovesData :
    let s := after [.serb] (squareDone 0x44)
    (s.status.done = true ∧ 5 < s.outlen.toNat ∧ s.ostream[5]? = some 0xC0) ∧ s.status.busy = false ∧
      (s.status.initOk = true → s.status.done = true) := by decide +kernel

theorem witness_StepKeepsInvariant : dithering.Inv ∧ ∃ t, step dithering = .next t := ⟨inv_dithering, _, rfl⟩

/-- PRG-1 before SERB, whose step gives a state with an artifact. -/
theorem witness_StepKeepsInvariant_artifact :
    { squareDone 0x44 with agenda := [.host (.writeReg 0x18 4 0x09)] }.Inv ∧
      gives (step { squareDone 0x44 with agenda := [.host (.writeReg 0x18 4 0x09)] })
        (fun t => t.status.done && t.outlen == 6) = true :=
  ⟨by apply inv_of <;> decide +kernel, by decide +kernel⟩

end Sys2Proof.Tests
end

section
/-! PROOF. What keeps the invariant of every reachable state (`State.Inv`): one lemma for each part of it, one for each shared
operation, one for each command and one for each agent's move. -/

namespace Sys2Proof.Machine

variable {s t : State}

/-! ### The parts of the invariant -/

/-- The memories one by one, the output buffers by their index. -/
theorem State.memoryWf_iff :
    s.MemoryWf ↔ s.raster.wf ∧ s.rawin.wf ∧ s.remap.wf ∧ ∀ i : BitVec 2, (s.obuf.get i).wf := by
  constructor
  · rintro ⟨hr, hi, hm, h0, h1, h2, h3⟩
    refine ⟨hr, hi, hm, fun i => ?_⟩
    unfold Obufs.get
    split <;> assumption
  · rintro ⟨hr, hi, hm, ho⟩
    exact ⟨hr, hi, hm, ho 0, ho 1, ho 2, ho 3⟩

/-- One output buffer replaced by a memory in canonical form. -/
theorem State.MemoryWf.setObuf (h : s.MemoryWf) (i : BitVec 2) {m : Memory} (hm : m.wf) :
    { s with obuf := s.obuf.set i m }.MemoryWf := by
  obtain ⟨hr, hi, hp, ho⟩ := State.memoryWf_iff.1 h
  refine State.memoryWf_iff.2 ⟨hr, hi, hp, fun j => ?_⟩
  by_cases hj : j = i
  · rwa [hj, Obufs.get_set_same]
  · rw [Obufs.get_set_other _ _ hj]; exact ho j

theorem State.MemoryWf.curObuf (h : s.MemoryWf) : (curObuf s).wf := (State.memoryWf_iff.1 h).2.2.2 _

/-- `Converting` speaks of L, the cursor, SUBDONE, ACTV and PALV alone, and stays true when ACTV or PALV falls. -/
theorem State.Converting.transfer (h : s.Converting) (hl : t.l = s.l) (hc : t.cur = s.cur)
    (hd : t.status.subdone = s.status.subdone) (ha : t.status.actv = true → s.status.actv = true)
    (hp : t.status.palv = true → s.status.palv = true) : t.Converting := by
  have hs : ∀ i, t.status.subDone i = s.status.subDone i := fun i => by simp only [Status.subDone, hd]
  have he : currentEncoder t = currentEncoder s := by simp only [currentEncoder, hl, hc]
  constructor
  case subRange => rw [hl, hc]; exact h.subRange
  case before => simp only [hc, hs]; exact h.before
  case after => simp only [hc, hs]; exact h.after
  case rawCursor => rw [hl, hc]; exact h.rawCursor
  case pixelCursor =>
    have := h.pixelCursor
    unfold State.CursorOk at this ⊢
    rwa [hl, hc, hs]
  case actv => rw [hc, hs, he]; exact fun h1 => h.actv (ha h1)
  case palv => rw [hl]; exact fun h1 => h.palv (hp h1)

/-- The fields the invariant does not speak of may take any value. -/
theorem State.Inv.unseen (h : s.Inv) {dims odims rawlen arg res : Word} {act : Rgb Byte} {palq : List (PalRequest × PalAnswer)}
    {agenda : List Move} {defers : Bool} {data : Option Word} :
    { s with dims := dims, odims := odims, rawlen := rawlen, arg := arg, res := res, act := act, palq := palq, agenda := agenda,
             collabDefers := defers, hostData := data }.Inv :=
  { h with converting := fun hi => (h.converting hi).transfer rfl rfl rfl id id }

/-! ### The shared operations -/

theorem State.Inv.setCurObuf (h : s.Inv) {m : Memory} (hm : m.wf) : (setCurObuf s m).Inv :=
  { h with
    memory := h.memory.setObuf _ hm
    converting := fun hi => (h.converting hi).transfer rfl rfl rfl id id }

/-- Error entry (60 R215). -/
theorem State.Inv.raiseError (h : s.Inv) {c : ErrCode} (hc : c ≠ .none) : (raiseError c s).Inv :=
  { h with
    idle := fun _ => ⟨rfl, rfl⟩
    error := fun _ => ⟨rfl, rfl, rfl⟩
    ecode := by simpa using hc
    noArtifact := fun _ => ⟨rfl, rfl⟩
    outlen := rfl
    artifact := nofun
    doneInit := nofun
    hold := nofun
    converting := nofun }

/-- The old outcome cleared, as INIT and RUN do first (44 R170). -/
theorem State.Inv.clearOutcome (h : s.Inv) (hw : s.waiting = false) : (clearOutcome s).Inv :=
  { h with
    error := nofun
    ecode := by simp
    noArtifact := fun _ => ⟨rfl, rfl⟩
    outlen := rfl
    artifact := nofun
    doneInit := nofun
    hold := fun hw' => absurd (hw.symm.trans hw') (by decide)
    converting := nofun }

theorem dropBusy_inv (h : s.Inv) : (dropBusy s).Inv := by
  unfold dropBusy
  split
  · rename_i hq
    simp only [Bool.and_eq_true, List.isEmpty_iff, Bool.not_eq_true'] at hq
    exact { h with
      idle := fun _ => hq
      error := fun he => ⟨rfl, (h.error he).2⟩
      converting := fun hi => (h.converting hi).transfer rfl rfl rfl id id }
  · exact h

/-- An artifact in a conversion that has not failed (45 R205). -/
theorem State.Inv.setArtifact (h : s.Inv) (he : s.status.err = false) (hi : s.status.initOk = true) {art : List Byte}
    (ha : 4 ≤ art.length) : (setArtifact s art).Inv :=
  { h with
    error := fun he' => absurd (he.symm.trans he') (by decide)
    noArtifact := nofun
    outlen := rfl
    artifact := fun _ => ⟨ha, outlenOf_pos (by omega)⟩
    doneInit := fun _ => hi
    converting := fun hi => (h.converting hi).transfer rfl rfl rfl id id }

/-! ### The end and the start of a sub-conversion (44 R170, R175, R179) -/

theorem Status.subDone_complete_same (d : Status) (i : BitVec 2) : (d.complete i).subDone i = true := by
  simp [Status.subDone_complete]

theorem Status.subDone_complete_other (d : Status) {i j : BitVec 2} (h : j ≠ i) : (d.complete i).subDone j = d.subDone j := by
  rw [Status.subDone_complete, decide_eq_false h, Bool.false_or]

/-- The current sub-conversion is complete and the cursor stands where 44 R178 leaves it. -/
theorem complete_converting (hn : s.cur.sub.toNat < s.l.nsub)
    (hbefore : ∀ j : BitVec 2, j.toNat < s.cur.sub.toNat → s.status.subDone j = true)
    (hafter : ∀ j : BitVec 2, s.cur.sub.toNat < j.toNat → s.status.subDone j = false)
    (ha : s.status.actv = false) (hv : s.status.palv = true → isIndexed s.l.fmt = true)
    (hraw : isRaw s.l.fmt = true → s.cur.x = 0 ∧ s.cur.y = 0 ∧ s.cur.pass = false)
    (hpixel : isRaw s.l.fmt = false → s.cur.x = 0 ∧ s.cur.y = s.l.h ∧ s.cur.pass = decide (nPass s.l.fmt = 2)) :
    (complete s s.cur.sub).Converting where
  subRange := hn
  before := fun j hj => by
    rw [complete_status, Status.subDone_complete, hbefore j hj, Bool.or_true]
  after := fun j hj => by
    have hne : j ≠ s.cur.sub := fun h => Nat.lt_irrefl _ (h ▸ hj)
    rw [complete_status, Status.subDone_complete_other _ hne, hafter j hj]
  rawCursor := hraw
  pixelCursor := fun hr => by
    rw [State.CursorOk, complete_status, complete_cur, if_pos (Status.subDone_complete_same _ _)]
    exact hpixel hr
  actv := fun ha' => absurd (ha.symm.trans ha') (by decide)
  palv := hv

section
variable {i : BitVec 2} (hi : i.toNat < s.l.nsub) (hbefore : ∀ j : BitVec 2, j.toNat < i.toNat → s.status.subDone j = true)
  (hafter : ∀ j : BitVec 2, i.toNat ≤ j.toNat → s.status.subDone j = false)
include hi hbefore hafter

/-- A sub-conversion with pixels, or a raw one, begins at its first pixel. -/
theorem freshSub_converting (hp : isRaw s.l.fmt = false → noPixels s.l = false) : (freshSub s i).Converting where
  subRange := hi
  before := hbefore
  after := fun j hj => hafter j (Nat.le_of_lt hj)
  rawCursor := fun _ => ⟨rfl, rfl, rfl⟩
  pixelCursor := fun hr => by
    have hd : (freshSub s i).status.subDone (freshSub s i).cur.sub = false := hafter i (Nat.le_refl _)
    have hwh : s.l.w.toNat * s.l.h.toNat ≠ 0 := by simpa [noPixels] using hp hr
    rw [State.CursorOk, hd]
    exact ⟨Nat.pos_of_ne_zero (left_ne_zero_of_mul hwh), Nat.pos_of_ne_zero (right_ne_zero_of_mul hwh), nofun⟩
  actv := nofun
  palv := nofun

/-- A sub-conversion without pixels begins complete, with the cursor at its end. -/
theorem finishEmpty_freshSub_converting (hr : isRaw s.l.fmt = false) {p : Bool} (hp : p = decide (nPass s.l.fmt = 2)) :
    (finishEmpty (freshSub s i) p).Converting :=
  complete_converting (s := { freshSub s i with cur := { (freshSub s i).cur with y := s.l.h, pass := p } })
    hi hbefore (fun j hj => hafter j (Nat.le_of_lt hj)) rfl nofun
    (fun hr' => absurd (hr.symm.trans hr') (by decide)) (fun _ => ⟨rfl, rfl, hp⟩)

/-- The start of a sub-conversion as INIT and SUBC share it. -/
theorem startSub_converting {p : Bool} (hp : isRaw s.l.fmt = false → p = decide (nPass s.l.fmt = 2)) :
    (if !isRaw s.l.fmt && noPixels s.l then finishEmpty (freshSub s i) p else freshSub s i).Converting := by
  split <;> rename_i h
  · have hr : isRaw s.l.fmt = false := by simp_all
    exact finishEmpty_freshSub_converting hi hbefore hafter hr (hp hr)
  · exact freshSub_converting hi hbefore hafter fun hr => by simpa [hr] using h

end

end Sys2Proof.Machine
end

section
/-! PROOF. The cursor and the pixel encoders keep the invariant. -/

namespace Sys2Proof.Machine

variable {s t : State}

/-! ### The family of the current encoder is that of the format (30 R91, R92) -/

theorem encSel_family {l : Latched} {i : BitVec 2} {p : Bool} {e : Encoder} (h : encSel l i p = some e) :
    isRaw l.fmt = decide (e = .raw) ∧ isIndexed l.fmt = (indexBits e).isSome := by
  unfold encSel at h
  split at h <;> rename_i hf <;> simp only [hf]
  case h_16 => split at h <;> cases h <;> decide
  case h_17 | h_18 | h_19 => split at h <;> split at h <;> cases h <;> decide
  all_goals cases h; decide

theorem isRaw_of_currentEncoder {e : Encoder} (h : currentEncoder s = some e) : isRaw s.l.fmt = decide (e = .raw) :=
  (encSel_family h).1

theorem isIndexed_of_currentEncoder {e : Encoder} (h : currentEncoder s = some e) :
    isIndexed s.l.fmt = (indexBits e).isSome := (encSel_family h).2

/-! ### The cursor inside the raster (44 R178) -/

/-- From inside the raster the advance leaves x inside it and y inside or at its end; at the end x is 0. Neither coordinate
wraps (log 20). -/
theorem Cursor.nextXY_bounds {c : Cursor} {l : Latched} (hx : c.x.toNat < l.w.toNat) (hy : c.y.toNat < l.h.toNat) :
    (c.nextXY l).x.toNat < l.w.toNat ∧ (c.nextXY l).y.toNat ≤ l.h.toNat ∧ ((c.nextXY l).y = l.h → (c.nextXY l).x = 0) := by
  unfold Cursor.nextXY
  split <;> rename_i hw <;> dsimp only
  · exact ⟨by bv_omega, by bv_omega, fun _ => rfl⟩
  · exact ⟨by bv_omega, hy.le, fun he => absurd hy (he ▸ Nat.lt_irrefl _)⟩

/-- A pass that a further one follows is the first of two; a legal pass that none follows is the last (44 R174, R178). -/
theorem nPass_eq_two_of_lt {f : Fmt} {p : Bool} (h : p.toNat + 1 < nPass f) : nPass f = 2 := by
  unfold nPass at h ⊢
  split at h
  · exact if_pos ‹_›
  · omega

theorem pass_eq_last {f : Fmt} {p : Bool} (hp : p = true → nPass f = 2) (h : ¬ p.toNat + 1 < nPass f) :
    p = decide (nPass f = 2) := by
  cases p with
  | true => simp [hp rfl]
  | false =>
    have : nPass f ≠ 2 := fun h2 => h (by rw [h2]; decide)
    simp [this]

/-- The cursor moved to another pixel of the sub-conversion, ACTV being 0. -/
theorem State.Converting.moveCursor (h : s.Converting) {c : Cursor} (hsub : c.sub = s.cur.sub)
    (hd : s.status.subDone s.cur.sub = false) (hr : isRaw s.l.fmt = false) (ha : s.status.actv = false)
    (hx : c.x.toNat < s.l.w.toNat) (hy : c.y.toNat < s.l.h.toNat) (hp : c.pass = true → nPass s.l.fmt = 2) :
    { s with cur := c }.Converting where
  subRange := hsub ▸ h.subRange
  before := hsub ▸ h.before
  after := hsub ▸ h.after
  rawCursor := fun hr' => absurd (hr.symm.trans hr') (by decide)
  pixelCursor := fun _ => by
    have hd' : s.status.subDone c.sub = false := hsub ▸ hd
    rw [State.CursorOk, hd']
    exact ⟨hx, hy, hp⟩
  actv := fun ha' => absurd (ha.symm.trans ha') (by decide)
  palv := h.palv

/-- The advance keeps the invariant where the pixel has been written and ACTV cleared. -/
theorem State.Inv.advance (h : s.Inv) (hi : s.status.initOk = true) (hd : s.status.subDone s.cur.sub = false)
    (hr : isRaw s.l.fmt = false) (ha : s.status.actv = false) : (advance s).Inv := by
  have hc := h.converting hi
  obtain ⟨hx, hy, hp⟩ : s.cur.x.toNat < s.l.w.toNat ∧ s.cur.y.toNat < s.l.h.toNat ∧
      (s.cur.pass = true → nPass s.l.fmt = 2) := by
    simpa [State.CursorOk, hd] using hc.pixelCursor hr
  obtain ⟨hx', hy', hx0⟩ := Cursor.nextXY_bounds hx hy
  have hsub := s.cur.nextXY_sub s.l
  have hpass := s.cur.nextXY_pass s.l
  rcases advance_cases s with ⟨hne, ht⟩ | ⟨-, hlast, ht⟩ | ⟨heq, hlast, ht⟩ <;> rw [ht]
  case inl =>
    have hlt := lt_of_le_of_ne hy' fun h => hne (BitVec.eq_of_toNat_eq h)
    exact { h with converting := fun _ => hc.moveCursor hsub hd hr ha hx' hlt fun h1 => hp (hpass ▸ h1) }
  case inr.inl =>
    exact { h with
      converting := fun _ => hc.moveCursor hsub hd hr ha hx' (Nat.zero_lt_of_lt hy) fun _ => nPass_eq_two_of_lt hlast }
  case inr.inr =>
    have hdone : (complete { s with cur := s.cur.nextXY s.l } (s.cur.nextXY s.l).sub).Converting :=
      complete_converting (s := { s with cur := s.cur.nextXY s.l }) (hsub ▸ hc.subRange) (hsub ▸ hc.before) (hsub ▸ hc.after)
        ha hc.palv (fun hr' => absurd (hr.symm.trans hr') (by decide))
        (fun _ => ⟨hx0 heq, heq, hpass.trans (pass_eq_last hp hlast)⟩)
    rw [hsub] at hdone
    exact { h with converting := fun _ => hdone }

/-- The end of a pixel encoder (43 R140) keeps the invariant wherever the encoder's checks passed. -/
theorem State.Inv.afterPixel (h : s.Inv) {e : Encoder} (he : e ≠ .raw) (hc : encoderChecks e s = .ok ()) :
    (afterPixel e s).Inv := by
  obtain ⟨hi, hd, hcur, hready⟩ := encoderChecks_eq_ok.1 hc
  have hr : isRaw s.l.fmt = false := by rw [isRaw_of_currentEncoder hcur, decide_eq_false he]
  unfold Machine.afterPixel
  cases ht : isTrueColour e with
  | true =>
    have h' : { s with status := { s.status with actv := false } }.Inv :=
      { h with converting := fun hi => (h.converting hi).transfer rfl rfl rfl nofun id }
    exact h'.advance hi hd hr rfl
  | false =>
    have ha : s.status.actv = false := by
      cases ha : s.status.actv with
      | false => rfl
      | true => simpa [hcur, ht] using ((h.converting hi).actv ha).2
    exact h.advance hi hd hr ha

end Sys2Proof.Machine
end

section
/-! PROOF. Every command and every move of every agent keeps the invariant (O60). -/

namespace Sys2Proof.Machine

variable {s t : State}

/-! ### The encoders' own rules keep the canonical form of the current output buffer -/

theorem wf_obufAppend (h : (curObuf s).wf) (bs : List Byte) : (curObuf (obufAppend s bs)).wf := by
  rw [obufAppend, curObuf_setCurObuf]; exact Memory.wf_writeList h _ _

theorem wf_packField (h : (curObuf s).wf) (base k : Nat) (v : Byte) : (curObuf (packField s base k v)).wf := by
  rw [packField, obufOr, curObuf_setCurObuf]; exact Memory.wf_write h _ _

theorem wf_packByte (h : (curObuf s).wf) (base : Nat) (v : Byte) : (curObuf (packByte s base v)).wf := by
  rw [packByte, obufSet, curObuf_setCurObuf]; exact Memory.wf_write h _ _

theorem writePixel_wf (h : (curObuf s).wf) {e : Encoder} (hw : writePixel e s = .ok t) : (curObuf t).wf := by
  cases e <;> simp only [writePixel, appendPixel, alphaField, indexField, bind_eq_ok, pure_eq_ok, Except.ok.injEq] at hw
  case pl565 => subst hw; exact wf_obufAppend h _
  case raw => subst hw; exact h
  all_goals obtain ⟨_, -, rfl⟩ := hw
  case tc332 | tc565 | tc565s | tc888 | tc8888 | pla8 => exact wf_obufAppend h _
  case a1 | a2 | a4 | i1 | i2 | i4 => exact wf_packField h _ _ _
  case a8 | i8 => exact wf_packByte h _ _

/-! ### The Quantizer stays in a byte, the carried error in its range (40 R103, 41 R118) -/

/-- The depths of the true-colour encoders (40 R107). -/
theorem depths_le {e : Encoder} {d : Rgb Nat} (h : depths e = some d) : AllChannels (fun b => b ≤ 8) d := by
  cases e <;> cases h <;> exact ⟨by decide, by decide, by decide⟩

theorem quantMax_bounds {b : Nat} (h : b ≤ 8) : 0 ≤ quantMax b ∧ quantMax b ≤ 255 := by
  interval_cases b <;> decide

theorem truncTo_bounds (r : TieRule) (v : Int) {b : Nat} (h : b ≤ 8) : 0 ≤ truncTo r v b ∧ truncTo r v b ≤ 255 := by
  have := quantMax_bounds h
  simp only [truncTo, clamp]
  omega

/-- The share carried to the next pixel, 7/16 of a residual of at most 255 (41 R114, R118). -/
theorem rnd16_carried_bounds (r : ShareRule) {n : Int} (h : -255 ≤ n ∧ n ≤ 255) :
    -112 ≤ rnd16 r (7 * n) ∧ rnd16 r (7 * n) ≤ 112 := by
  cases r with
  | halfUpPos => simp only [rnd16, rndHalfUp]; omega
  | halfAway =>
    simp only [rnd16, rndHalfAway]
    rcases lt_trichotomy (7 * n) 0 with h0 | h0 | h0
    · rw [Int.sign_eq_neg_one_of_neg h0]; omega
    · rw [h0]; decide
    · rw [Int.sign_eq_one_of_pos h0]; omega

@[simp] theorem length_spread (r : ShareRule) (earr : List Int) (x : Nat) (res : Int) :
    (spread r earr x res).length = earr.length := by simp [spread, addAt]

/-- One channel of QPIX keeps the range of the carried error. -/
theorem channelStep_nerr_bounds {e : Encoder} {smp : Byte} {b : Nat} {n : Int} {earr : List Int} (hb : b ≤ 8)
    (hn : -112 ≤ n ∧ n ≤ 112) : -112 ≤ (channelStep s e smp b n earr).nerr ∧ (channelStep s e smp b n earr).nerr ≤ 112 := by
  unfold channelStep
  split
  · have hq := truncTo_bounds (tieRule s.params (.encoder e)) (workingValue smp n earr s.cur.x.toNat) hb
    exact rnd16_carried_bounds _ ⟨by omega, by omega⟩
  · exact hn

@[simp] theorem length_channelStep (e : Encoder) (smp : Byte) (b : Nat) (n : Int) (earr : List Int) :
    (channelStep s e smp b n earr).earr.length = earr.length := by
  unfold channelStep
  split
  · exact length_spread _ _ _ _
  · rfl

/-- QPIX where it is legal (41 R113). -/
theorem State.Inv.quantizePixel (h : s.Inv) {e : Encoder} {d : Rgb Nat} (smp : Rgb Byte) (hd : depths e = some d)
    (he : currentEncoder s = some e) (hs : s.status.subDone s.cur.sub = false) : (quantizePixel s e d smp).Inv :=
  have ⟨hr, hg, hb⟩ := depths_le hd
  have ⟨nr, ng, nb⟩ := h.nerr
  have ⟨er, eg, eb⟩ := h.earr
  { h with
    earr := ⟨(length_channelStep ..).trans er, (length_channelStep ..).trans eg, (length_channelStep ..).trans eb⟩
    nerr := ⟨channelStep_nerr_bounds hr nr, channelStep_nerr_bounds hg ng, channelStep_nerr_bounds hb nb⟩
    converting := fun hi =>
      have hc := h.converting hi
      { hc with
        actv := fun _ => ⟨hs, by
          have : currentEncoder (Machine.quantizePixel s e d smp) = some e := he
          simp [this, isTrueColour, hd]⟩ } }

/-! ### The palette (42 R126 to R129) -/

theorem palSize_le {e : Encoder} {k : Nat} (h : indexBits e = some k) : palSize k ≤ 256 := by
  cases e <;> cases h <;> decide

theorem length_paletteOf {cs : List Color} (h : cs.length ≤ 256) : (paletteOf cs).length = 256 := by
  simp only [paletteOf, List.length_append, List.length_replicate]; omega

/-- A palette built from an answer that keeps the contract (42 R129, R130). -/
theorem acceptAnswer_inv (h : s.Inv) (hw : s.waiting = false) (hx : isIndexed s.l.fmt = true) {p : Nat} (hp : p ≤ 256)
    {a : PalAnswer} (ha : acceptAnswer p a s = .ok t) : t.Inv := by
  obtain ⟨hok, rfl⟩ := acceptAnswer_eq_ok.1 ha
  simp only [answerOk, Bool.and_eq_true, decide_eq_true_eq] at hok
  obtain ⟨⟨hlen, -⟩, -⟩ := hok
  have h' := h.setCurObuf (Memory.wf_writeList h.memory.curObuf 0 (regionBytes (paletteOf a.colors) p))
  obtain ⟨hraster, hrawin, hremap, hobuf⟩ := State.memoryWf_iff.1 h'.memory
  exact { h' with
    memory := State.memoryWf_iff.2 ⟨hraster, hrawin, Memory.wf_writeList hremap _ _, hobuf⟩
    palette := length_paletteOf (hlen.trans hp)
    hold := fun hw' => absurd (hw.symm.trans hw') (by decide)
    converting := fun hi =>
      have hc := h.converting hi
      { hc with palv := fun _ => hx } }

/-- PALB to its end (42 R127). -/
theorem palbBody_inv (h : s.Inv) (hw : s.waiting = false) (hb : palbBody s = .ok t) : t.Inv := by
  obtain ⟨p, image, hp, -, hacc⟩ := palbBody_eq_ok.1 hb
  obtain ⟨-, hpal, -⟩ := palbChecks_eq_ok.1 hp
  obtain ⟨e, k, hcur, hk, rfl⟩ := paletteAt_eq_ok.1 hpal
  have hx : isIndexed s.l.fmt = true := by rw [isIndexed_of_currentEncoder hcur, hk]; rfl
  exact acceptAnswer_inv h hw hx (palSize_le hk) hacc

/-! ### Every command keeps the invariant -/

/-- A command that ends keeps the invariant when its effect does. -/
theorem Ends.inv {effect : Prop} (he : Ends s t effect) (h : s.Inv) (hk : s.status.err = false → effect → t.Inv) : t.Inv := by
  rcases he with ⟨-, rfl⟩ | ⟨he, heff | ⟨c, hc, rfl⟩⟩
  · exact h
  · exact hk he heff
  · exact h.raiseError hc

/-- The pixel encoders (43 R140). -/
theorem exec_encoder_inv (h : s.Inv) {e : Encoder} (he : e ≠ .raw) (hx : exec (encoderInstr e) s = .next t) : t.Inv := by
  refine (exec_encoder_ends he hx).inv h fun _ heff => ?_
  obtain ⟨hc, m, hw, rfl⟩ := heff
  have hm : m.wf := by simpa using writePixel_wf h.memory.curObuf hw
  exact (h.setCurObuf hm).afterPixel he hc

/-- ENC.RAW (43 R161). -/
theorem exec_raw_inv (h : s.Inv) (hx : exec .encRaw s = .next t) : t.Inv := by
  refine (exec_raw_ends hx).inv h fun _ heff => ?_
  obtain ⟨hc, bytes, -, rfl⟩ := heff
  obtain ⟨hi, -, hcur, -⟩ := encoderChecks_eq_ok.1 hc
  have hr : isRaw s.l.fmt = true := isRaw_of_currentEncoder hcur
  have h' := h.setCurObuf (Memory.wf_writeList h.memory.curObuf 0 bytes)
  have hconv := h.converting hi
  have ha : s.status.actv = false := by
    cases ha : s.status.actv with
    | false => rfl
    | true => simpa [hcur, isTrueColour, depths] using (hconv.actv ha).2
  exact { h' with
    converting := fun hi =>
      have hc := h'.converting hi
      complete_converting hc.subRange hc.before hc.after ha hc.palv hc.rawCursor
        fun hr' => absurd (hr.symm.trans hr') (by decide) }

/-- PALB, as one step or as the beginning of the hold (42 R127, R128). -/
theorem exec_palb_inv (h : s.Inv) (hw : s.waiting = false) (hx : exec .palb s = .next t) : t.Inv := by
  refine (exec_palb_ends hx).inv h fun he heff => ?_
  rcases heff with ⟨-, hb⟩ | ⟨-, ⟨p, hp⟩, rfl⟩
  · exact palbBody_inv h hw hb
  · obtain ⟨hi, -, hv⟩ := palbChecks_eq_ok.1 hp
    exact { h with
      idle := nofun
      error := fun he' => absurd (he.symm.trans he') (by decide)
      hold := fun _ => ⟨hi, hv⟩
      converting := fun hi => (h.converting hi).transfer rfl rfl rfl id id }

/-- The dither state that INIT, SUBC and reset leave (41 R118, 44 R185). -/
theorem length_zeroEarr (w : BitVec 16) :
    AllChannels (fun e => e.length = w.toNat + 2) ⟨zeroEarr w, zeroEarr w, zeroEarr w⟩ := by
  simp [AllChannels, zeroEarr]

theorem zero_carried_bounds : AllChannels (fun n : Int => -112 ≤ n ∧ n ≤ 112) ⟨0, 0, 0⟩ := by simp [AllChannels]

/-- A request with four sub-conversions is composite, so it is not raw and has one pass (44 R174). -/
theorem nSub_eq_four {f : Fmt} {o : Bool} (h : nSub f o = 4) : isRaw f = false ∧ decide (nPass f = 2) = false := by
  cases f <;> cases o <;> revert h <;> decide

/-- SUBC (44 R175): the sub-conversions before the new one are complete, the new one and those after it are not. -/
theorem exec_subc_inv (h : s.Inv) {i : BitVec 2} (hx : exec (.subc i) s = .next t) : t.Inv := by
  refine (exec_subc_ends hx).inv h fun _ heff => ?_
  obtain ⟨hinit, hn, hnext, hdone, ht⟩ := heff
  have hc := h.converting hinit
  obtain ⟨hr, hpass⟩ := nSub_eq_four (h.nsub.symm.trans hn)
  have hbefore : ∀ j : BitVec 2, j.toNat < i.toNat → s.status.subDone j = true := fun j hj => by
    rcases Nat.lt_or_eq_of_le (Nat.le_of_lt_succ (hnext ▸ hj)) with hj | hj
    · exact hc.before j hj
    · rw [BitVec.eq_of_toNat_eq hj]; exact hdone
  have hstart : t.Converting := by
    have := startSub_converting (s := { s with obuf := s.obuf.set i [] }) (hn ▸ i.isLt) hbefore
      (fun j hj => hc.after j (by omega)) (p := false) fun _ => hpass.symm
    rw [ht]
    simpa [hr] using this
  split at ht <;> subst ht
  all_goals
    exact { h with
      memory := h.memory.setObuf i List.Pairwise.nil
      earr := length_zeroEarr s.l.w
      nerr := zero_carried_bounds
      hold := fun hw => ⟨(h.hold hw).1, rfl⟩
      converting := fun _ => hstart }

/-! ### INIT and RUN (44 R170, R181) -/

/-- STATUS after INIT: SUBDONE depends on the image, the rest does not (44 R170). -/
theorem startImage_status (l : Latched) (w : Bool) (s : State) : ∃ d, (startImage l w s).status =
    { s.status with warn := w, palv := false, actv := false, subdone := d, initOk := true } := by
  simp only [startImage]
  split
  · exact ⟨_, rfl⟩
  · exact ⟨_, rfl⟩

/-- The first sub-conversion after INIT. -/
theorem startImage_converting (l : Latched) (w : Bool) (s : State) (hn : l.nsub = nSub l.fmt l.out) :
    (startImage l w s).Converting := by
  have hpos : 0 < l.nsub := by rw [hn]; unfold nSub; split <;> decide
  have := startSub_converting (i := 0)
    (s := { s with l := l, obuf := Obufs.empty, status := { s.status with warn := w, subdone := 0 } })
    hpos (fun j hj => absurd hj (Nat.not_lt_zero _)) (fun j _ => by simp [Status.subDone])
    (p := nPass l.fmt == 2) fun _ => rfl
  exact this.transfer rfl rfl rfl id id

/-- What INIT latches (44 R171 to R173). -/
theorem startImage_inv (h : s.Inv) (he : s.status.err = false) (hd : s.status.done = false) {l : Latched} (w : Bool)
    (hn : l.nsub = nSub l.fmt l.out)
    (henc : l.out = true → isComposite l.fmt = true → 1 ≤ l.binsub.toNat ∧ l.binsub.toNat ≤ 4)
    (hhdr : l.out = true → (formatCode s.params l.fmt).isSome = true ∧ dimsFit l = true) : (startImage l w s).Inv := by
  obtain ⟨d, hst⟩ := startImage_status l w s
  obtain ⟨hraster, hrawin, hremap, -⟩ := State.memoryWf_iff.1 h.memory
  constructor
  case memory => simpa [State.MemoryWf, Obufs.empty] using ⟨hraster, hrawin, hremap⟩
  case reserved => simpa [State.ReservedZero] using h.reserved
  case palette => simpa using h.palette
  case earr => simpa using length_zeroEarr l.w
  case nerr => simpa using zero_carried_bounds
  case idle => simpa [hst] using h.idle
  case error => simp [hst, he]
  case ecode => simpa [hst] using h.ecode
  case noArtifact => simpa [hst] using h.noArtifact
  case outlen => simpa using h.outlen
  case artifact => simp [hst, hd]
  case doneInit => simp [hst]
  case nsub => simpa using hn
  case encoder => simpa using henc
  case header => simpa using hhdr
  case hold => simp [hst]
  case converting => exact fun _ => startImage_converting l w s hn

theorem exec_init_inv (h : s.Inv) (hw : s.waiting = false) (hx : exec .init s = .next t) : t.Inv := by
  have hclear := h.clearOutcome hw
  rcases exec_init_eq_next hx with ⟨f, hv, hdims, rfl⟩ | ⟨c, hc, rfl⟩
  · obtain ⟨-, henc, hcode, -⟩ := validate_eq_ok hv
    refine startImage_inv hclear rfl rfl _ rfl henc fun ho => ⟨hcode ho, ?_⟩
    rw [dimsFit, Bool.and_eq_true, decide_eq_true_eq, decide_eq_true_eq]
    exact hdims ho
  · exact hclear.raiseError hc

theorem initBody_err (h : initBody s = .ok t) : t.status.err = s.status.err := by
  simp only [initBody, bind_eq_ok, require_eq_ok, pure_eq_ok, Except.ok.injEq] at h
  obtain ⟨f, -, -, -, rfl⟩ := h
  obtain ⟨d, hst⟩ := startImage_status (latch s.cfg f (chooseDims s.dims s.odims s.instat).1
    (chooseDims s.dims s.odims s.instat).2.1 s.rawlen) (chooseDims s.dims s.odims s.instat).2.2 s
  rw [hst]

theorem exec_run_inv (h : s.Inv) (hw : s.waiting = false) (hx : exec .run s = .next t) : t.Inv := by
  rcases exec_run_eq_next hx with ⟨u, hu, hinit, rfl⟩ | ⟨c, hc, rfl⟩
  · have h' := exec_init_inv h hw hinit
    exact { h' with
      idle := nofun
      error := fun he => by simp [initBody_err hu] at he
      converting := fun hi => (h'.converting hi).transfer rfl rfl rfl id id }
  · exact (h.clearOutcome hw).raiseError hc

/-! ### The commands that write one register -/

theorem exec_rows_inv (h : s.Inv) (hx : exec .rows s = .next t) : t.Inv :=
  (exec_rows_ends hx).inv h fun _ ⟨_, ht⟩ => ht ▸ { h with
    nerr := zero_carried_bounds
    converting := fun hi => (h.converting hi).transfer rfl rfl rfl id id }

theorem exec_qpix_inv (h : s.Inv) (hx : exec .qpix s = .next t) : t.Inv := by
  refine (exec_qpix_ends hx).inv h fun _ heff => ?_
  obtain ⟨-, hs, -, e, d, smp, he, hd, -, rfl⟩ := heff
  exact h.quantizePixel smp hd he hs

theorem exec_trunc_inv (h : s.Inv) {v : BitVec 12} {b : BitVec 4} (hx : exec (.trunc v b) s = .next t) : t.Inv :=
  (exec_trunc_ends hx).inv h fun _ ⟨_, _, ht⟩ => ht ▸ h.unseen

theorem exec_palr_inv (h : s.Inv) (hx : exec .palr s = .next t) : t.Inv :=
  (exec_palr_ends hx).inv h fun _ ⟨_, _, _, _, _, _, ht⟩ => ht ▸ h.unseen

theorem exec_hdr_inv (h : s.Inv) (hx : exec .hdr s = .next t) : t.Inv :=
  (exec_hdr_ends hx).inv h fun _ ⟨_, _, ht⟩ => ht ▸ h.unseen

/-! ### The serializers (45 R194, R196) -/

theorem exec_serb_inv (h : s.Inv) (hx : exec .serb s = .next t) : t.Inv := by
  refine (exec_serb_ends hx).inv h fun he heff => ?_
  obtain ⟨bodies, w, hb, -, -, rfl⟩ := heff
  exact h.setArtifact he (serCheck_eq_ok.1 hb).1 (four_le_length_binary _ _)

theorem exec_sert_inv (h : s.Inv) (hx : exec .sert s = .next t) : t.Inv := by
  refine (exec_sert_ends hx).inv h fun he heff => ?_
  obtain ⟨bodies, hb, -, rfl⟩ := heff
  exact h.setArtifact he (serCheck_eq_ok.1 hb).1 (four_le_length_text _ _ _)

/-! ### Every command, every agent (00 R6) -/

/-- Every command keeps the invariant, unless PALB already waits. -/
theorem exec_inv (h : s.Inv) (hw : s.waiting = false) {i : Instr} (hx : exec i s = .next t) : t.Inv := by
  rcases Instr.cases_encoder i with
    ⟨e, he, rfl⟩ | rfl | rfl | rfl | rfl | rfl | rfl | ⟨v, b, rfl⟩ | rfl | rfl | rfl | rfl | ⟨k, rfl⟩
  · exact exec_encoder_inv h he hx
  · exact exec_raw_inv h hx
  · exact exec_init_inv h hw hx
  · exact exec_run_inv h hw hx
  · exact exec_palb_inv h hw hx
  · exact exec_rows_inv h hx
  · exact exec_qpix_inv h hx
  · exact exec_trunc_inv h hx
  · exact exec_palr_inv h hx
  · exact exec_hdr_inv h hx
  · exact exec_serb_inv h hx
  · exact exec_sert_inv h hx
  · exact exec_subc_inv h hx

/-- A command word, legal or not (60 R220). -/
theorem issue_inv (h : s.Inv) (hw : s.waiting = false) {w : Word} (hx : issue w s = .next t) : t.Inv := by
  unfold issue at hx
  split at hx
  · cases hx; exact h
  · split at hx
    · exact exec_inv h hw hx
    · cases hx; exact h.raiseError (by decide)

theorem thenDropBusy_eq_next {o : Host.Outcome State Fault Refusal} :
    thenDropBusy o = .next t ↔ ∃ u, o = .next u ∧ t = dropBusy u := by
  cases o <;> simp [thenDropBusy, eq_comm]

/-- The sequencer's turn (44 R182). -/
theorem sequencerTurn_inv (h : s.Inv) (hx : sequencerTurn s = .next t) : t.Inv := by
  unfold sequencerTurn at hx
  split at hx <;> rename_i hrun
  · cases hx; exact h
  · simp only [Bool.or_eq_true, Bool.not_eq_true', not_or, Bool.not_eq_true, Bool.not_eq_false] at hrun
    obtain ⟨hw, hb⟩ := hrun
    split at hx
    · cases hx; exact dropBusy_inv h
    · rename_i w rest hq
      have hrest : { s with pq := rest }.Inv :=
        { h with
          idle := fun hb' => absurd (hb.symm.trans hb') (by decide)
          converting := fun hi => (h.converting hi).transfer rfl rfl rfl id id }
      obtain ⟨u, hu, rfl⟩ := thenDropBusy_eq_next.1 hx
      exact dropBusy_inv (issue_inv hrest hw hu)

/-- The collaborator's answer (70 R239). -/
theorem answerTurn_inv (h : s.Inv) (hx : answerTurn s = .next t) : t.Inv := by
  unfold answerTurn at hx
  split at hx
  · have hfree : { s with waiting := false }.Inv :=
      { h with
        idle := fun hb => ⟨(h.idle hb).1, rfl⟩
        hold := nofun
        converting := fun hi => (h.converting hi).transfer rfl rfl rfl id id }
    obtain ⟨u, hu, rfl⟩ := thenDropBusy_eq_next.1 hx
    exact dropBusy_inv ((runCommand_ends .palbBody hu).inv hfree fun _ hb => palbBody_inv hfree rfl hb)
  · cases hx; exact h

theorem registerAccess_eq_next {o n : Nat} {k : Host.Outcome State Fault Refusal} (h : registerAccess o n k = .next t) :
    k = .next t := by
  unfold registerAccess at h
  split at h
  · cases h
  · split at h
    · cases h
    · exact h

/-- A register write other than CMD: the reserved bits stay 0 (10 R25, R28). -/
theorem storeRegister_inv (h : s.Inv) (o : Nat) (v : Word) : (storeRegister s o v).Inv := by
  have hcfg : v &&& 0x00000FFF &&& 0xFFFFF000 = 0 := by rw [BitVec.and_assoc]; simp
  have hinstat : v &&& 0x00000003 &&& 0xFFFFFFFC = 0 := by rw [BitVec.and_assoc]; simp
  unfold storeRegister
  split
  case h_1 =>
    exact { h with
      reserved := ⟨hcfg, h.reserved.2⟩
      converting := fun hi => (h.converting hi).transfer rfl rfl rfl id id }
  case h_4 =>
    exact { h with
      reserved := ⟨h.reserved.1, hinstat⟩
      converting := fun hi => (h.converting hi).transfer rfl rfl rfl id id }
  case h_7 => exact h
  all_goals exact h.unseen

/-- Every access of the host (60 R226). -/
theorem hostTurn_inv (h : s.Inv) {a : HostAccess} (hx : hostTurn s a = .next t) : t.Inv := by
  cases a with
  | readReg o n => cases registerAccess_eq_next hx; exact h.unseen
  | writeReg o n v =>
    have hx := registerAccess_eq_next hx
    split at hx
    · cases hx
    · rename_i hbusy
      split at hx <;> rename_i ho
      · have hb : s.status.busy = false := by simpa [ho, isRegister] using hbusy
        exact issue_inv h (h.idle hb).2 hx
      · cases hx; exact storeRegister_inv h o v
  | writeRaster a v =>
    simp only [hostTurn, writeRaster] at hx
    split at hx <;> cases hx
    obtain ⟨hraster, hrawin, hremap, hobuf⟩ := State.memoryWf_iff.1 h.memory
    exact { h with
      memory := State.memoryWf_iff.2 ⟨Memory.wf_write hraster a v, hrawin, hremap, hobuf⟩
      converting := fun hi => (h.converting hi).transfer rfl rfl rfl id id }
  | writeRawin a v =>
    simp only [hostTurn, writeRawin] at hx
    split at hx <;> cases hx
    obtain ⟨hraster, hrawin, hremap, hobuf⟩ := State.memoryWf_iff.1 h.memory
    exact { h with
      memory := State.memoryWf_iff.2 ⟨hraster, Memory.wf_write hrawin a v, hremap, hobuf⟩
      converting := fun hi => (h.converting hi).transfer rfl rfl rfl id id }
  | readOstream a =>
    simp only [hostTurn, readArtifact] at hx
    split at hx
    · split at hx <;> cases hx
      exact h.unseen
    · cases hx

/-- The reset event (10 R46, 70 R230). -/
theorem resetEvent_inv (s : State) : (resetEvent s).Inv where
  memory := ⟨.nil, .nil, .nil, .nil, .nil, .nil, .nil⟩
  reserved := ⟨BitVec.zero_and, BitVec.zero_and⟩
  palette := List.length_replicate
  earr := length_zeroEarr 0
  nerr := zero_carried_bounds
  idle := fun _ => ⟨rfl, rfl⟩
  error := nofun
  ecode := ⟨fun _ => rfl, fun _ => rfl⟩
  noArtifact := fun _ => ⟨rfl, rfl⟩
  outlen := rfl
  artifact := nofun
  doneInit := nofun
  nsub := rfl
  encoder := nofun
  header := nofun
  hold := nofun
  converting := nofun

/-- Every move of every agent keeps the invariant. -/
theorem takeMove_inv (h : s.Inv) {m : Move} (hx : takeMove m s = .next t) : t.Inv := by
  cases m with
  | sequencer => exact sequencerTurn_inv h hx
  | host a => exact hostTurn_inv h hx
  | collabDefer b => cases hx; exact h.unseen
  | collabAnswer => exact answerTurn_inv h hx
  | reset => cases hx; exact resetEvent_inv s

theorem step_inv (h : s.Inv) (hx : step s = .next t) : t.Inv := by
  simp only [step, nextMove] at hx
  split at hx
  · exact sequencerTurn_inv h hx
  · exact takeMove_inv h.unseen hx

/-- Settles O60: every move of every agent keeps the invariant. -/
theorem stepKeepsInvariant : Obligations.StepKeepsInvariant := fun _ _ h hx => step_inv h hx

end Sys2Proof.Machine
end

section
/-! PROOF. Reset, the register window and the command register as a step reaches them (10 R21 to R36, R46): O5, O6, O54, O55, O56,
O59. -/

namespace Sys2Proof.Machine

variable {s : State} {rest : List Move}

/-! ### A step is the move at the head of the agenda (log 1) -/

theorem step_of_agenda {m : Move} (h : s.agenda = m :: rest) : step s = takeMove m { s with agenda := rest } := by
  simp only [step, nextMove, h]

/-- A register access inside the window, 4-byte aligned and 32 bits wide, is made (20 R60, R74). -/
theorem registerAccess_aligned {k : Nat} (hk : k < 64) (o : Host.Outcome State Fault Refusal) :
    registerAccess (4 * k) 4 o = o := by
  have hshape : ¬ (4 ≠ 4 ∨ 4 * k % 4 ≠ 0) := by omega
  have hwindow : ¬ 0xFF < 4 * k := by omega
  rw [registerAccess, if_neg hshape, if_neg hwindow]

/-- A register write while BUSY = 0, at a legal offset other than CMD, stores. -/
theorem writeRegister_idle {k : Nat} (hk : k < 64) (hne : k ≠ 6) (hb : s.status.busy = false) (v : Word) :
    writeRegister s (4 * k) 4 v = .next (storeRegister s (4 * k) v) := by
  have hcmd : 4 * k ≠ 0x18 := by omega
  rw [writeRegister, registerAccess_aligned hk, hb, if_neg hcmd]
  rfl

/-- A write of CMD while BUSY = 0 executes the word (10 R31). -/
theorem step_of_command {w : Word} (ha : s.agenda = .host (.writeReg 0x18 4 w) :: rest) (hb : s.status.busy = false) :
    step s = issue w { s with agenda := rest } := by
  rw [step_of_agenda ha]
  simp only [takeMove, hostTurn, writeRegister]
  rw [registerAccess_aligned (k := 6) (by decide), hb]
  rfl

/-! ### Command words -/

/-- Settles O5: the write issues the word, and a word that does not decode enters the error state. -/
theorem illegalWordRaises : Obligations.IllegalWordRaises := by
  intro s w rest d ha hb he hd
  rw [step_of_command ha hb, issue, he, hd]
  rfl

/-- The opcode of a word that decodes is that of its command (30 R84, R87). -/
theorem opField_of_decode {w : Word} {i : Instr} (h : decode w = .ok i) : opField w = i.opcode := by
  unfold decode at h
  split at h
  · split at h <;> cases h
    assumption
  · split at h
    · split at h <;> cases h
      assumption
    · split at h
      · rename_i j hj
        split at h <;> cases h
        obtain ⟨l₁, l₂, hl, -⟩ := List.lookup_eq_some_iff.1 hj
        have hmap : ∀ p ∈ formatN, p.1 = p.2.opcode := by decide
        exact hmap (opField w, i) (by rw [hl]; simp)
      · cases h

/-- Every command but INIT and RUN has no effect while ERR = 1 (60 R218). -/
theorem exec_err (he : s.status.err = true) {i : Instr} (hinit : i ≠ .init) (hrun : i ≠ .run) : exec i s = .next s := by
  rcases Instr.cases_encoder i with
    ⟨e, hraw, rfl⟩ | rfl | rfl | rfl | rfl | rfl | rfl | ⟨v, b, rfl⟩ | rfl | rfl | rfl | rfl | ⟨k, rfl⟩
  case inl => rw [exec_encoder hraw]; exact runCommand_err _ he
  case inr.inr.inl => exact absurd rfl hinit
  case inr.inr.inr.inl => exact absurd rfl hrun
  all_goals exact runCommand_err _ he

/-- A command word runs its command, also while ERR = 1: INIT and RUN leave the error state, every other command has no effect
in it (60 R218, R220). -/
theorem issue_of_decode {w : Word} {i : Instr} (h : decode w = .ok i) (s : State) : issue w s = exec i s := by
  rw [issue, h]
  split <;> rename_i hskip
  · simp only [Bool.and_eq_true, Bool.not_eq_true', leavesError, Bool.or_eq_false_iff, decide_eq_false_iff_not,
      opField_of_decode h] at hskip
    obtain ⟨he, hinit, hrun⟩ := hskip
    exact (exec_err he (mt (congrArg Instr.opcode) hinit) (mt (congrArg Instr.opcode) hrun)).symm
  · rfl

/-- Settles O6: the write issues the word, and a word that decodes is its command. -/
theorem hostWordRunsCommand : Obligations.HostWordRunsCommand := by
  intro s w i hb hd
  have hrun : ∀ (t : State) (rest : List Move), t.status.busy = false → t.agenda = .host (.writeReg 0x18 4 w) :: rest →
      step t = exec i { t with agenda := rest } := fun t rest hb ha => by
    rw [step_of_command ha hb, issue_of_decode hd]
  refine ⟨fun rest ha => hrun s rest hb ha, ?_⟩
  have hw : BitVec.ofNat 32 (w.toNat % 2 ^ 32) = w := by rw [Nat.mod_eq_of_lt w.isLt, BitVec.ofNat_toNat, BitVec.setWidth_eq]
  rw [State.withFetchWord, hw, withCommandNext, if_neg (by simp [hb])]
  exact hrun { s with agenda := .host (.writeReg 0x18 4 w) :: s.agenda } s.agenda hb rfl

/-! ### The register window -/

/-- A concatenation as a number. -/
theorem toNat_append_eq {m n : Nat} (a : BitVec m) (b : BitVec n) : (a ++ b).toNat = a.toNat * 2 ^ n + b.toNat := by
  rw [BitVec.toNat_append, ← Nat.shiftLeft_add_eq_or_of_lt b.isLt, Nat.shiftLeft_eq]

/-- The codes of 60 R211 in the order of their values. -/
theorem ErrCode.code_toNat (c : ErrCode) : c.code.toNat = [ErrCode.none, .ceUnknownFormat, .ceNoBinsub, .ceNoFormatCode,
    .ceDimsRange, .loadError, .iePaletteMiss, .ieIndexRange, .ieCollaborator, .cmdIllegal].idxOf c := by
  cases c <;> rfl

/-- STATUS has its flags at the bit positions of 10 R32. -/
theorem status_word_eq (d : Status) : d.word = BitVec.ofNat 32 (statusNumber d) := by
  have hword : d.word.toNat = statusNumber d := by
    simp only [Status.word, statusNumber, toNat_append_eq, BitVec.toNat_ofBool, ← ErrCode.code_toNat, BitVec.ofNat_eq_ofNat,
      BitVec.toNat_ofNat, Nat.zero_mod]
    omega
  rw [← hword, BitVec.ofNat_toNat, BitVec.setWidth_eq]

theorem registerValue_reserved (s : State) {o : Nat} (h : 0x2C < o) : registerValue s o = 0 := by
  unfold registerValue
  split
  case h_13 => rfl
  all_goals omega

/-- The register at each word of the window (10 R21, R22). -/
theorem registerValue_aligned (s : State) (k : Nat) : registerValue s (4 * k) =
    ([s.cfg, s.dims, s.odims, s.instat, s.rawlen, s.arg, 0, BitVec.ofNat 32 (statusNumber s.status), s.res, s.outlen,
      s.cur.y ++ s.cur.x, (0 : BitVec 29) ++ s.cur.sub ++ BitVec.ofBool s.cur.pass] : List Word).getD k 0 := by
  rw [← status_word_eq]
  match k with
  | 0 | 1 | 2 | 3 | 4 | 5 | 6 | 7 | 8 | 9 | 10 | 11 => rfl
  | k + 12 => rw [registerValue_reserved s (by omega)]; rfl

/-- The low n bits of a word. -/
theorem and_lowMask (v : Word) (n : Nat) (hn : n ≤ 32) : v &&& BitVec.ofNat 32 (2 ^ n - 1) = BitVec.ofNat 32 (v.toNat % 2 ^ n) := by
  have hpow : 2 ^ n ≤ 2 ^ 32 := Nat.pow_le_pow_right (by decide) hn
  have hmask : (2 ^ n - 1) % 2 ^ 32 = 2 ^ n - 1 := Nat.mod_eq_of_lt (by omega)
  have hlow : v.toNat % 2 ^ n < 2 ^ 32 := (Nat.mod_lt _ (by positivity)).trans_le hpow
  apply BitVec.eq_of_toNat_eq
  rw [BitVec.toNat_and, BitVec.toNat_ofNat, BitVec.toNat_ofNat, hmask, Nat.and_two_pow_sub_one_eq_mod, Nat.mod_eq_of_lt hlow]

theorem storeRegister_readOnly (s : State) {o : Nat} (h : 0x14 < o) (v : Word) : storeRegister s o v = s := by
  unfold storeRegister
  split
  case h_7 => rfl
  all_goals omega

/-- What a register write stores at each word of the window (10 R21, R25, R28). -/
theorem storeRegister_aligned (s : State) (k : Nat) (v : Word) : storeRegister s (4 * k) v = { s with
    cfg := if k = 0 then BitVec.ofNat 32 (v.toNat % 2 ^ 12) else s.cfg
    dims := if k = 1 then v else s.dims
    odims := if k = 2 then v else s.odims
    instat := if k = 3 then BitVec.ofNat 32 (v.toNat % 4) else s.instat
    rawlen := if k = 4 then v else s.rawlen
    arg := if k = 5 then v else s.arg } := by
  match k with
  | 0 => exact congrArg (fun c => { s with cfg := c }) (and_lowMask v 12 (by decide))
  | 3 => exact congrArg (fun c => { s with instat := c }) (and_lowMask v 2 (by decide))
  | 1 | 2 | 4 | 5 => rfl
  | k + 6 => rw [storeRegister_readOnly s (by omega)]; rfl

/-- Settles O55. STATUS is read by `status_word_eq`, the reserved offsets by `registerValue_reserved`. -/
theorem registerReads : Obligations.RegisterReads := by
  intro s rest k hk ha
  rw [step_of_agenda ha, ← registerValue_aligned s k]
  exact registerAccess_aligned hk _

/-- Settles O56 by `storeRegister_aligned`. -/
theorem registerWrites : Obligations.RegisterWrites := by
  intro s rest k v hk hne hb ha
  rw [step_of_agenda ha]
  exact (writeRegister_idle (s := { s with agenda := rest }) hk hne hb v).trans
    (congrArg Host.Outcome.next (storeRegister_aligned _ k v))

/-! ### Reset (10 R46) -/

/-- Settles O54: the reset state is a literal. -/
theorem resetValues : Obligations.ResetValues := by
  refine ⟨?_, rfl, ?_, rfl, rfl, fun _ => ⟨rfl, rfl, rfl⟩⟩
  · decide
  · exact ⟨rfl, rfl, rfl, rfl, List.length_replicate, fun _ hc => List.eq_of_mem_replicate hc⟩

/-- Settles O59: the state after reset is what the reset event leaves; the other two invariants speak of a conversion. -/
theorem resetMeetsInvariants : Obligations.ResetMeetsInvariants := ⟨resetEvent_inv State.reset, nofun, nofun⟩

end Sys2Proof.Machine
end

section
/-! PROOF. What a command reads of the input memories, in which order, and the fault at the first byte nothing has written (10 R47):
O16. -/

namespace Sys2Proof.Machine

variable {s t : State} {α β : Type}

/-! ### Computations that read a range of bytes in ascending order -/

/-- The computation reads the n bytes from a on, in ascending order: it stops at the first unwritten one, and ends when there is
none. -/
structure Reads (sp : Space) (m : Memory) (a n : Nat) (x : Except Stop α) : Prop where
  stops : ∀ j < n, FirstUnwritten m a j → x = .error (.fault (.unwrittenInput sp (a + j)))
  ends : (∀ j < n, Memory.read m (a + j) ≠ none) → ∃ r, x = .ok r

section
variable {sp : Space} {m : Memory} {a n k : Nat} {x : Except Stop α} {f : α → Except Stop β}

theorem Reads.ok (r : α) : Reads sp m a 0 (.ok r) := ⟨nofun, fun _ => ⟨r, rfl⟩⟩

theorem Reads.byte : Reads sp m a 1 (fetchByte sp m a) where
  stops := fun j hj hu => by
    obtain rfl : j = 0 := by omega
    exact fetchByte_eq_error.2 ⟨hu.2, rfl⟩
  ends := fun h => by
    obtain ⟨b, hb⟩ := Option.ne_none_iff_exists'.1 (h 0 Nat.one_pos)
    exact ⟨b, fetchByte_eq_ok.2 hb⟩

/-- Two computations in a row read two ranges in a row. -/
theorem Reads.bind (hx : Reads sp m a n x) (hf : ∀ r, Reads sp m (a + n) k (f r)) : Reads sp m a (n + k) (x >>= f) where
  stops := fun j hj ⟨hbefore, hj0⟩ => by
    by_cases hjn : j < n
    · rw [hx.stops j hjn ⟨hbefore, hj0⟩]; rfl
    · obtain ⟨i, rfl⟩ := Nat.exists_eq_add_of_le (Nat.le_of_not_lt hjn)
      obtain ⟨r, rfl⟩ := hx.ends fun i hi => hbefore i (by omega)
      have hu : FirstUnwritten m (a + n) i :=
        ⟨fun i' hi' => by rw [Nat.add_assoc]; exact hbefore _ (by omega), by rwa [Nat.add_assoc]⟩
      rw [← Nat.add_assoc]
      exact (hf r).stops i (by omega) hu
  ends := fun h => by
    obtain ⟨r, rfl⟩ := hx.ends fun j hj => h j (by omega)
    exact (hf r).ends fun j hj => by rw [Nat.add_assoc]; exact h _ (by omega)

theorem Reads.fetchBytes : Reads sp m a n (fetchBytes sp m a n) := by
  induction n generalizing a with
  | zero => exact .ok _
  | succ n ih =>
    have : Reads sp m a (1 + n) (Machine.fetchBytes sp m a (n + 1)) :=
      Reads.byte.bind fun _ => ih.bind (k := 0) fun _ => .ok _
    rwa [Nat.add_comm 1 n] at this

theorem Reads.fetchColor : Reads sp m a 4 (fetchColor sp m a) :=
  Reads.byte.bind (k := 3) fun _ => Reads.byte.bind (k := 2) fun _ => Reads.byte.bind (k := 1) fun _ =>
    Reads.byte.bind (k := 0) fun _ => .ok _

theorem Reads.fetchRow : Reads sp m a (4 * n) (fetchRow sp m a n) := by
  induction n generalizing a with
  | zero => exact .ok _
  | succ n ih =>
    have : Reads sp m a (4 + 4 * n) (Machine.fetchRow sp m a (n + 1)) :=
      Reads.fetchColor.bind fun _ => ih.bind (k := 0) fun _ => .ok _
    rwa [show 4 + 4 * n = 4 * (n + 1) by ring] at this

theorem Reads.fetchRows {w h : Nat} : Reads sp m a (4 * (w * h)) (fetchRows sp m w a h) := by
  induction h generalizing a with
  | zero => exact .ok _
  | succ h ih =>
    have : Reads sp m a (4 * w + 4 * (w * h)) (Machine.fetchRows sp m w a (h + 1)) :=
      Reads.fetchRow.bind fun _ => ih.bind (k := 0) fun _ => .ok _
    rwa [show 4 * w + 4 * (w * h) = 4 * (w * (h + 1)) by ring] at this

end

theorem Reads.sampleRgb : Reads .raster s.raster (pixelAddr s.l s.cur.x.toNat s.cur.y.toNat) 3 (sampleRgb s) :=
  Reads.byte.bind (k := 2) fun _ => Reads.byte.bind (k := 1) fun _ => Reads.byte.bind (k := 0) fun _ => .ok _

/-! ### Which faults a computation can end in -/

/-- The input memory of a space (20 R60). -/
def inputMemory (s : State) : Space → Memory
  | .raster => s.raster
  | .rawin => s.rawin
  | .remap => s.remap

/-- A computation that faults only at a byte of the input memories of s that nothing has written. -/
def FaultsUnwritten (s : State) (x : Except Stop α) : Prop :=
  ∀ f, x = .error (.fault f) → ∃ sp a, f = .unwrittenInput sp a ∧ Memory.read (inputMemory s sp) a = none

theorem FaultsUnwritten.ok (r : α) : FaultsUnwritten s (.ok r : Except Stop α) := nofun

theorem FaultsUnwritten.raise (c : ErrCode) : FaultsUnwritten s (.error (.raise c) : Except Stop α) := nofun

theorem FaultsUnwritten.require {b : Bool} {c : ErrCode} : FaultsUnwritten s (require b c) := by
  cases b <;> exact nofun

theorem FaultsUnwritten.bind {x : Except Stop α} {f : α → Except Stop β} (hx : FaultsUnwritten s x)
    (hf : ∀ r, FaultsUnwritten s (f r)) : FaultsUnwritten s (x >>= f) := fun e he => by
  rcases bind_eq_error.1 he with he | ⟨r, -, he⟩
  · exact hx e he
  · exact hf r e he

/-- Reads of an input memory fault at its unwritten bytes alone. -/
theorem Reads.faultsUnwritten {sp : Space} {a n : Nat} {x : Except Stop α} (h : Reads sp (inputMemory s sp) a n x) :
    FaultsUnwritten s x := fun f hf => by
  by_cases hall : ∀ j < n, Memory.read (inputMemory s sp) (a + j) ≠ none
  · obtain ⟨r, hr⟩ := h.ends hall
    cases hf.symm.trans hr
  · push Not at hall
    have hex : ∃ j, j < n ∧ Memory.read (inputMemory s sp) (a + j) = none := hall
    obtain ⟨hlt, hnone⟩ := Nat.find_spec hex
    have hfirst := h.stops _ hlt ⟨fun i hi hi0 => Nat.find_min hex hi ⟨hi.trans hlt, hi0⟩, hnone⟩
    cases hf.symm.trans hfirst
    exact ⟨sp, _, rfl, hnone⟩

theorem FaultsUnwritten.sampleAlpha : FaultsUnwritten s (sampleAlpha s) :=
  Reads.faultsUnwritten (sp := .raster) Reads.byte

theorem FaultsUnwritten.trailingAlpha : FaultsUnwritten s (trailingAlpha s) := by
  unfold Machine.trailingAlpha
  split
  · exact .bind .sampleAlpha fun _ => .ok _
  · exact .ok _

theorem FaultsUnwritten.resolveOrMiss {pal : List Color} {p : Nat} {c : Color} : FaultsUnwritten s (resolveOrMiss pal p c) := by
  unfold Machine.resolveOrMiss
  split
  · exact .ok _
  · exact .raise _

theorem FaultsUnwritten.indexVal {k : Nat} : FaultsUnwritten s (indexVal k s) :=
  .bind (Reads.faultsUnwritten (sp := .remap) Reads.fetchColor) fun _ => .resolveOrMiss

theorem FaultsUnwritten.encoderChecks {e : Encoder} : FaultsUnwritten s (encoderChecks e s) :=
  .bind .require fun _ => .bind .require fun _ => .require

theorem FaultsUnwritten.writePixel {e : Encoder} : FaultsUnwritten s (writePixel e s) := by
  cases e <;> simp only [Machine.writePixel]
  case tc332 | tc565 | tc565s | tc888 | tc8888 => exact .bind .trailingAlpha fun _ => .ok _
  case pl565 | raw => exact .ok _
  case pla8 | a1 | a2 | a4 | a8 => exact .bind .sampleAlpha fun _ => .ok _
  case i1 | i2 | i4 | i8 => exact .bind .indexVal fun _ => .ok _

theorem FaultsUnwritten.trueColourAt : FaultsUnwritten s (trueColourAt s) := by
  unfold Machine.trueColourAt
  split
  · split
    · exact .ok _
    · exact .raise _
  · exact .raise _

theorem FaultsUnwritten.paletteAt : FaultsUnwritten s (paletteAt s) := by
  unfold Machine.paletteAt
  split
  · split
    · exact .ok _
    · exact .raise _
  · exact .raise _

theorem FaultsUnwritten.palbChecks : FaultsUnwritten s (palbChecks s) :=
  .bind .require fun _ => .bind .paletteAt fun _ => .bind .require fun _ => .ok _

theorem FaultsUnwritten.rasterImage : FaultsUnwritten s (rasterImage s) :=
  Reads.faultsUnwritten (sp := .raster) Reads.fetchRows

theorem FaultsUnwritten.hdrOrIllegal {p : Params} {l : Latched} : FaultsUnwritten s (hdrOrIllegal p l) := by
  unfold Machine.hdrOrIllegal
  split
  · exact .ok _
  · exact .raise _

theorem FaultsUnwritten.completeBodies {is : List (BitVec 2)} : FaultsUnwritten s (completeBodies s is) := by
  induction is with
  | nil => exact .ok _
  | cons i is ih =>
    refine .bind ?_ fun _ => .bind ih fun _ => .ok _
    unfold completeBody
    split
    · exact .ok _
    · exact .raise _

theorem FaultsUnwritten.serCheck : FaultsUnwritten s (serCheck s) :=
  .bind .require fun _ => .bind .require fun _ => .bind .require fun _ => .completeBodies

theorem FaultsUnwritten.initBody : FaultsUnwritten s (initBody t) := by
  refine .bind ?_ fun _ => .bind .require fun _ => .ok _
  unfold validate
  split
  · exact .raise _
  · exact .bind .require fun _ => .bind .require fun _ => .bind .require fun _ => .bind .require fun _ => .ok _

/-! ### Which outcomes a command can have -/

/-- An outcome that is no refusal, and no fault but at a byte of the input memories of s that nothing has written. -/
def OnlyFaultsUnwritten (s : State) (o : Host.Outcome State Fault Refusal) : Prop :=
  (∀ r, o ≠ .refused r) ∧
    ∀ f, o = .fault f → ∃ sp a, f = .unwrittenInput sp a ∧ Memory.read (inputMemory s sp) a = none

theorem settle_eq_fault {r : Except Stop State} {f : Fault} : settle s r = .fault f ↔ r = .error (.fault f) := by
  match r with
  | .ok s' => simp
  | .error (.raise c) => simp
  | .error (.fault g) => simp

theorem settle_onlyFaults {x : Except Stop State} (h : FaultsUnwritten s x) : OnlyFaultsUnwritten s (settle t x) :=
  ⟨fun _ => settle_ne_refused, fun f hf => h f (settle_eq_fault.1 hf)⟩

theorem runCommand_onlyFaults {b : State → Except Stop State} (h : FaultsUnwritten s (b s)) :
    OnlyFaultsUnwritten s (runCommand s b) := by
  unfold runCommand
  split
  · exact ⟨nofun, nofun⟩
  · exact settle_onlyFaults h

theorem exec_onlyFaults (i : Instr) (s : State) : OnlyFaultsUnwritten s (exec i s) := by
  rcases Instr.cases_encoder i with
    ⟨e, he, rfl⟩ | rfl | rfl | rfl | rfl | rfl | rfl | ⟨v, b, rfl⟩ | rfl | rfl | rfl | rfl | ⟨k, rfl⟩
  · rw [exec_encoder he]
    exact runCommand_onlyFaults (.bind .encoderChecks fun _ => .bind .writePixel fun _ => .ok _)
  · exact runCommand_onlyFaults
      (.bind .encoderChecks fun _ => .bind (Reads.faultsUnwritten (sp := .rawin) Reads.fetchBytes) fun _ => .ok _)
  · exact settle_onlyFaults .initBody
  · exact settle_onlyFaults (.bind .initBody fun _ => .ok _)
  · refine runCommand_onlyFaults ?_
    split
    · exact .bind .palbChecks fun _ => .bind .rasterImage fun _ => .ok _
    · exact .bind .palbChecks fun _ => .bind .rasterImage fun _ => .bind .require fun _ => .ok _
  · exact runCommand_onlyFaults (.bind .require fun _ => .ok _)
  · exact runCommand_onlyFaults (.bind .require fun _ => .bind .trueColourAt fun _ => .bind .require fun _ =>
      .bind (Reads.faultsUnwritten (sp := .raster) Reads.sampleRgb) fun _ => .ok _)
  · exact runCommand_onlyFaults (.bind .require fun _ => .ok _)
  · exact runCommand_onlyFaults (.bind .require fun _ => .bind .paletteAt fun _ => .bind .require fun _ =>
      .bind .resolveOrMiss fun _ => .ok _)
  · exact runCommand_onlyFaults (.bind .require fun _ => .bind .hdrOrIllegal fun _ => .bind .require fun _ => .ok _)
  · exact runCommand_onlyFaults (.bind .serCheck fun _ => .bind .require fun _ => .bind .hdrOrIllegal fun _ => .ok _)
  · exact runCommand_onlyFaults (.bind .serCheck fun _ => .bind .require fun _ => .ok _)
  · exact runCommand_onlyFaults (.bind .require fun _ => .bind .require fun _ => .ok _)

/-! ### The fault of each command that reads -/

theorem runCommand_fault {b : State → Except Stop State} {f : Fault} (he : s.status.err = false)
    (hb : b s = .error (.fault f)) : runCommand s b = .fault f := by rw [runCommand_ok b he, hb, settle_fault]

theorem encoderChecks_of_mayEncode {e : Encoder} (h : MayEncode e s) (hr : encoderReady e s.status = true) :
    encoderChecks e s = .ok () := by
  obtain ⟨-, hi, hd, hcur⟩ := h
  exact encoderChecks_eq_ok.2 ⟨hi, hd, hcur, hr⟩

/-- A legal encoder whose own rule faults. -/
theorem exec_encoder_fault {e : Encoder} (he : e ≠ .raw) (h : MayEncode e s) (hr : encoderReady e s.status = true) {f : Fault}
    (hw : writePixel e s = .error (.fault f)) : exec (encoderInstr e) s = .fault f := by
  rw [exec_encoder he]
  exact runCommand_fault h.1 (by simp [encoderChecks_of_mayEncode h hr, hw])

/-- QPIX reads R, G and B of its pixel (41 R113). -/
theorem qpix_faults {e : Encoder} (hd : (depths e).isSome = true) (h : MayEncode e s) (ha : s.status.actv = false) {j : Nat}
    (hj : j < 3) (hu : FirstUnwritten s.raster (pixelAddr s.l s.cur.x.toNat s.cur.y.toNat) j) :
    FaultsAt .qpix s .raster (pixelAddr s.l s.cur.x.toNat s.cur.y.toNat + j) := by
  obtain ⟨he, hi, hs, hcur⟩ := h
  obtain ⟨d, hd⟩ := Option.isSome_iff_exists.1 hd
  have htrue := trueColourAt_eq_ok.2 ⟨hcur, hd⟩
  exact runCommand_fault he (by simp [qpixBody, hi, hs, ha, htrue, Reads.sampleRgb.stops j hj hu])

/-- The commands that need the alpha sample (43 R149, R151). -/
theorem alpha_faults {e : Encoder} (hmem : e ∈ [Encoder.a1, .a2, .a4, .a8, .pla8]) (h : MayEncode e s)
    (hu : Memory.read s.raster (pixelAddr s.l s.cur.x.toNat s.cur.y.toNat + 3) = none) :
    FaultsAt (encoderInstr e) s .raster (pixelAddr s.l s.cur.x.toNat s.cur.y.toNat + 3) := by
  have hsample : sampleAlpha s = .error (.fault (.unwrittenInput .raster _)) := fetchByte_eq_error.2 ⟨hu, rfl⟩
  simp only [List.mem_cons, List.not_mem_nil, or_false] at hmem
  rcases hmem with rfl | rfl | rfl | rfl | rfl <;>
    exact exec_encoder_fault (by decide) h rfl (by simp [writePixel, alphaField, hsample])

/-- The true-colour encoders that carry alpha (43 R147). -/
theorem trailingAlpha_faults {e : Encoder} (hmem : e ∈ [Encoder.tc332, .tc565, .tc565s, .tc888, .tc8888]) (h : MayEncode e s)
    (ha : s.status.actv = true) (heff : effAlpha s.l = true)
    (hu : Memory.read s.raster (pixelAddr s.l s.cur.x.toNat s.cur.y.toNat + 3) = none) :
    FaultsAt (encoderInstr e) s .raster (pixelAddr s.l s.cur.x.toNat s.cur.y.toNat + 3) := by
  have hsample : sampleAlpha s = .error (.fault (.unwrittenInput .raster _)) := fetchByte_eq_error.2 ⟨hu, rfl⟩
  have htrail : trailingAlpha s = .error (.fault (.unwrittenInput .raster (pixelAddr s.l s.cur.x.toNat s.cur.y.toNat + 3))) := by
    rw [trailingAlpha, if_pos heff, hsample]; rfl
  simp only [List.mem_cons, List.not_mem_nil, or_false] at hmem
  rcases hmem with rfl | rfl | rfl | rfl | rfl <;>
    exact exec_encoder_fault (by decide) h ha (by simp [writePixel, appendPixel, htrail])

/-- The indexed encoders read the REMAP colour (43 R156). -/
theorem indexed_faults {e : Encoder} (hmem : e ∈ [Encoder.i1, .i2, .i4, .i8]) (h : MayEncode e s) (hv : s.status.palv = true)
    {j : Nat} (hj : j < 4) (hu : FirstUnwritten s.remap (pixelAddr s.l s.cur.x.toNat s.cur.y.toNat) j) :
    FaultsAt (encoderInstr e) s .remap (pixelAddr s.l s.cur.x.toNat s.cur.y.toNat + j) := by
  have hindex : ∀ k, indexVal k s = .error (.fault (.unwrittenInput .remap _)) := fun k => by
    rw [indexVal, Reads.fetchColor.stops j hj hu]; rfl
  simp only [List.mem_cons, List.not_mem_nil, or_false] at hmem
  rcases hmem with rfl | rfl | rfl | rfl <;>
    exact exec_encoder_fault (by decide) h hv (by simp [writePixel, indexField, hindex])

/-- ENC.RAW reads RAWIN (43 R161). -/
theorem raw_faults (h : MayEncode .raw s) {j : Nat} (hj : j < s.l.rawlen.toNat) (hu : FirstUnwritten s.rawin 0 j) :
    FaultsAt .encRaw s .rawin j := by
  have hread := Reads.fetchBytes.stops j hj hu (sp := .rawin)
  rw [Nat.zero_add] at hread
  exact runCommand_fault h.1 (by simp [encRawBody, encoderChecks_of_mayEncode h rfl, hread])

/-- PALB reads the whole image, whether or not the collaborator answers at once (42 R127, R128). -/
theorem palb_faults {e : Encoder} (hk : (indexBits e).isSome = true) (he : s.status.err = false) (hi : s.status.initOk = true)
    (hcur : currentEncoder s = some e) (hv : s.status.palv = false) {j : Nat} (hj : j < 4 * (s.l.w.toNat * s.l.h.toNat))
    (hu : FirstUnwritten s.raster 0 j) : FaultsAt .palb s .raster j := by
  obtain ⟨k, hk⟩ := Option.isSome_iff_exists.1 hk
  have hchecks : palbChecks s = .ok (palSize k) := palbChecks_eq_ok.2 ⟨hi, paletteAt_eq_ok.2 ⟨e, k, hcur, hk, rfl⟩, hv⟩
  have hread : rasterImage s = _ := Reads.fetchRows.stops j hj hu (sp := .raster)
  rw [Nat.zero_add] at hread
  refine runCommand_fault he ?_
  split
  · simp [palbHold, hchecks, hread]
  · simp [palbBody, hchecks, hread]

/-- Which requests carry the alpha sample behind a true-colour pixel (30 R93). -/
theorem effAlpha_of_format {l : Latched}
    (h : (l.fmt ∈ [Fmt.tc332, .tc565, .tc565s, .tc888] ∧ l.alpha = true) ∨ l.fmt = .trueColorAlpha) : effAlpha l = true := by
  simp only [List.mem_cons, List.not_mem_nil, or_false] at h
  unfold effAlpha
  rcases h with ⟨h | h | h | h, ha⟩ | h <;> rw [h] <;> assumption

/-- Settles O16: `exec_onlyFaults` for the soundness of the fault, one lemma for each kind of read for the converse. -/
theorem onlyUnwrittenBytesFault : Obligations.OnlyUnwrittenBytesFault := by
  refine ⟨fun i s => ⟨(exec_onlyFaults i s).1, fun f hf => ?_⟩, ?_⟩
  · obtain ⟨sp, a, rfl, ha⟩ := (exec_onlyFaults i s).2 f hf
    exact ⟨sp, a, rfl, by cases sp <;> exact ha⟩
  · rintro s a rfl
    have hcolour : ∀ e ∈ [Encoder.tc332, .tc565, .tc565s, .tc888, .tc8888, .pl565], (depths e).isSome = true := by decide
    have hindexed : ∀ e ∈ [Encoder.i1, .i2, .i4, .i8], (indexBits e).isSome = true := by decide
    exact ⟨fun e he h ha j hj hu => qpix_faults (hcolour e he) h ha hj hu, fun e he h hu => alpha_faults he h hu,
      fun e he h ha hf hu => trailingAlpha_faults he h ha (effAlpha_of_format hf) hu,
      fun e he h hv j hj hu => indexed_faults he h hv hj hu, fun h j hj hu => raw_faults h hj hu,
      fun e he herr hi hcur hv j hj hu => palb_faults (hindexed e he) herr hi hcur hv hj hu⟩

end Sys2Proof.Machine
end

section
/-! PROOF. The host's accesses to the memories: the artifact byte it reads and the input bytes it writes (20 R60, R66, R77): O58. -/

namespace Sys2Proof.Machine

variable {s : State} {a : Nat} {b : Byte}

/-- No conversion is in progress: the block is not busy, and an image INIT began has its artifact (44 R183, R186). -/
theorem converting_eq_false {t : Status} : converting t = false ↔ t.busy = false ∧ (t.initOk = true → t.done = true) := by
  simp only [converting, Bool.or_eq_false_iff, Bool.and_eq_false_imp, Bool.not_eq_false']

/-- A byte of the artifact is readable while DONE = 1 (20 R66). -/
theorem readArtifact_of_done (hd : s.status.done = true) (ha : a < s.outlen.toNat) (hb : s.ostream[a]? = some b) :
    readArtifact s a = .next { s with hostData := some (BitVec.ofNat 32 b.toNat) } := by
  simp only [readArtifact, hd, ha, decide_true, Bool.and_self, if_true, hb, BitVec.ofNat_toNat]

theorem writeRaster_of_not_converting (h : converting s.status = false) :
    writeRaster s a b = .next { s with raster := Memory.write s.raster a b } := by
  simp only [writeRaster, h, Bool.false_eq_true, if_false]

theorem writeRawin_of_not_converting (h : converting s.status = false) :
    writeRawin s a b = .next { s with rawin := Memory.write s.rawin a b } := by
  simp only [writeRawin, h, Bool.false_eq_true, if_false]

/-- Settles O58: each step is the host's access at the head of the agenda; the bytes after a write are `Memory.read_write`. -/
theorem hostMovesData : Obligations.HostMovesData := by
  intro s rest a b
  refine ⟨fun hd ha hb hag => ?_, fun hbusy hdone => ?_⟩
  · rw [step_of_agenda hag]
    exact readArtifact_of_done (s := { s with agenda := rest }) hd ha hb
  · have hidle : converting s.status = false := converting_eq_false.2 ⟨hbusy, hdone⟩
    refine ⟨fun hag => ⟨Memory.write s.raster a b, ?_, fun p => Memory.read_write s.raster a p b⟩,
      fun hag => ⟨Memory.write s.rawin a b, ?_, fun p => Memory.read_write s.rawin a p b⟩⟩
    · rw [step_of_agenda hag]
      exact writeRaster_of_not_converting (s := { s with agenda := rest }) hidle
    · rw [step_of_agenda hag]
      exact writeRawin_of_not_converting (s := { s with agenda := rest }) hidle

end Sys2Proof.Machine
end

section
/-! PROOF. Decoder and encoder are inverse to each other, the legal words as number ranges, and the header word HDR writes (30 R80
to R97, 45 R191, R192): O1, O2, O3, O4, O45. -/

namespace Sys2Proof.Machine

variable {w : Word} {i : Instr}

/-! ### The fields of a word (30 R80, R81) -/

/-- Two concatenations of the same widths agree exactly when their parts do. -/
theorem append_eq_append_iff {m n : Nat} {a c : BitVec m} {b d : BitVec n} : a ++ b = c ++ d ↔ a = c ∧ b = d := by
  refine ⟨fun h => ⟨?_, ?_⟩, fun ⟨ha, hb⟩ => by rw [ha, hb]⟩
  · simpa only [BitVec.extractLsb'_append_eq_left] using congrArg (BitVec.extractLsb' n m) h
  · simpa only [BitVec.extractLsb'_append_eq_right] using congrArg (BitVec.extractLsb' 0 n) h

/-- cmd[31:8], the bits above OP: what `Instr.operandBits` gives for a command. -/
def operandField (w : Word) : BitVec 24 := w.extractLsb' 8 24

/-- A word is its bits above OP followed by OP, so nothing else of it can be dropped. -/
theorem operandField_append_opField (w : Word) : operandField w ++ opField w = w :=
  BitVec.extractLsb'_append_extractLsb' (w := 24) (len := 8)

theorem encode_eq_iff : encode i = w ↔ opField w = i.opcode ∧ operandField w = i.operandBits := by
  rw [← operandField_append_opField w, encode, append_eq_append_iff, operandField_append_opField]
  exact ⟨fun ⟨ho, hc⟩ => ⟨hc.symm, ho.symm⟩, fun ⟨hc, ho⟩ => ⟨ho.symm, hc.symm⟩⟩

/-- Format T (30 R81): the bits above OP are the reserved bits, BITS and V. -/
theorem operandField_eq_trunc_iff {v : BitVec 12} {b : BitVec 4} : operandField w = (Instr.trunc v b).operandBits ↔
    w.extractLsb' 24 8 = 0 ∧ valueField w = v ∧ bitsField w = b := by
  have hparts : operandField w = w.extractLsb' 24 8 ++ bitsField w ++ valueField w := by
    rw [bitsField, BitVec.extractLsb'_append_extractLsb'_eq_extractLsb' (by decide), valueField,
      BitVec.extractLsb'_append_extractLsb'_eq_extractLsb' (by decide), operandField]
  rw [hparts, Instr.operandBits, append_eq_append_iff, append_eq_append_iff, and_assoc, and_comm (a := bitsField w = b)]

/-- Format S (30 R81): the bits above OP are the reserved bits and SUB. -/
theorem operandField_eq_subc_iff {k : BitVec 2} : operandField w = (Instr.subc k).operandBits ↔
    w.extractLsb' 10 22 = 0 ∧ subField w = k := by
  have hparts : operandField w = w.extractLsb' 10 22 ++ subField w := by
    rw [subField, BitVec.extractLsb'_append_extractLsb'_eq_extractLsb' (by decide), operandField]
  rw [hparts, Instr.operandBits, append_eq_append_iff]

/-! ### Decoding (30 R84 to R87) -/

/-- An opcode stands at most once in the table of format N, so its lookup finds every entry. -/
theorem lookup_formatN {c : BitVec 8} : formatN.lookup c = some i ↔ (c, i) ∈ formatN := by
  refine ⟨fun h => ?_, fun h => ?_⟩
  · obtain ⟨l₁, l₂, hl, -⟩ := List.lookup_eq_some_iff.1 h
    rw [hl]
    simp
  · have honce : ∀ p ∈ formatN, formatN.lookup p.1 = some p.2 := by decide
    exact honce (c, i) h

/-- The words that decode and what they decode to, one case for each format. -/
theorem decode_eq_ok : decode w = .ok i ↔
    (opField w = 0x06 ∧ w.extractLsb' 24 8 = 0 ∧ Instr.trunc (valueField w) (bitsField w) = i) ∨
    (opField w = 0x0B ∧ w.extractLsb' 10 22 = 0 ∧ Instr.subc (subField w) = i) ∨
    ((opField w, i) ∈ formatN ∧ operandField w = 0) := by
  have hformats : ∀ p ∈ formatN, p.1 ≠ 0x06 ∧ p.1 ≠ 0x0B := by decide
  unfold decode
  by_cases ht : opField w = 0x06
  · have hn : (0x06, i) ∉ formatN := fun h => (hformats _ h).1 rfl
    rw [if_pos ht, ht]
    split <;> simp_all
  by_cases hs : opField w = 0x0B
  · have hn : (0x0B, i) ∉ formatN := fun h => (hformats _ h).2 rfl
    rw [if_neg ht, if_pos hs, hs]
    split <;> simp_all
  · rw [if_neg ht, if_neg hs, ← lookup_formatN, ← operandField]
    simp only [ht, hs, false_and, false_or]
    cases formatN.lookup (opField w) with
    | none => simp
    | some j => by_cases ho : operandField w = 0#24 <;> simp [ho]

/-- The table of format N holds every command but TRUNC and SUBC, at its opcode. -/
theorem mem_formatN_iff {c : BitVec 8} : (c, i) ∈ formatN ↔
    c = i.opcode ∧ (∀ v b, i ≠ .trunc v b) ∧ ∀ k, i ≠ .subc k := by
  cases i <;> simp [formatN, Instr.opcode]

/-- The decoder and the encoder are inverse to each other: a word decodes to exactly the command whose word it is. -/
theorem decode_eq_ok_iff_encode : decode w = .ok i ↔ encode i = w := by
  rw [decode_eq_ok, encode_eq_iff, mem_formatN_iff]
  cases i
  case trunc v b => rw [operandField_eq_trunc_iff]; simp [Instr.opcode]
  case subc k => rw [operandField_eq_subc_iff]; simp [Instr.opcode]
  all_goals simp [Instr.operandBits]

/-- A word of 32 bits is read from its number as it is (30 R80). -/
theorem decodeTableWord_toNat (w : Word) : decodeTableWord 32 w.toNat = (decode w).toOption := by
  rw [decodeTableWord, Nat.mod_eq_of_lt w.isLt, if_pos w.isLt, BitVec.ofNat_toNat, BitVec.setWidth_eq]

/-- Settles O1: `decode_eq_ok_iff_encode` at the word of the command, then the word through its number. -/
theorem decodeReadsBackEncode : Obligations.DecodeReadsBackEncode := by
  intro i
  have hdecode : decode (encode i) = .ok i := decode_eq_ok_iff_encode.2 rfl
  exact ⟨hdecode, by rw [decodeTableWord_toNat, hdecode]; rfl⟩

/-- Settles O2: the other direction of `decode_eq_ok_iff_encode`. -/
theorem encodeReadsBackDecode : Obligations.EncodeReadsBackDecode := fun _ _ => decode_eq_ok_iff_encode.1

/-- Settles O3: each word is the encoding of its command. -/
theorem exampleWordsDecode : Obligations.ExampleWordsDecode := by
  refine ⟨?_, ?_, ?_, ?_, ?_⟩ <;> exact decode_eq_ok_iff_encode.2 rfl

/-! ### The opcode map as numbers (30 R84 to R86) -/

/-- A field as a number. -/
theorem toNat_extractLsb'_eq (w : Word) (start len : Nat) :
    (w.extractLsb' start len).toNat = w.toNat / 2 ^ start % 2 ^ len := by
  rw [BitVec.extractLsb'_toNat, Nat.shiftRight_eq_div_pow]

/-- The 25 opcodes of format N. -/
theorem exists_mem_formatN_iff {c : BitVec 8} : (∃ i, (c, i) ∈ formatN) ↔
    (1 ≤ c.toNat ∧ c.toNat ≤ 0x0A ∧ c.toNat ≠ 0x06) ∨ (0x40 ≤ c.toNat ∧ c.toNat ≤ 0x4F) := by
  simp only [formatN, List.mem_cons, List.not_mem_nil, Prod.mk.injEq, or_false, exists_or, exists_and_left, exists_eq, and_true,
    BitVec.toNat_eq, BitVec.ofNat_eq_ofNat, BitVec.toNat_ofNat]
  omega

/-- Settles O4: one case for each format, with the fields as numbers. -/
theorem legalWordsAreTheMap : Obligations.LegalWordsAreTheMap := by
  intro w
  have hw : w.toNat < 2 ^ 32 := w.isLt
  simp only [decode_eq_ok, exists_or, exists_and_left, exists_and_right, exists_eq', and_true, exists_mem_formatN_iff, opField,
    operandField, BitVec.toNat_eq, toNat_extractLsb'_eq, BitVec.ofNat_eq_ofNat, BitVec.toNat_ofNat]
  omega

/-! ### The header word (30 R94) -/

/-- The three fields do not overlap, so their disjunction is their sum. -/
theorem headerWord_toNat (c : BitVec 10) {w h : BitVec 16} (hw : w.toNat ≤ 2047) (hh : h.toNat ≤ 2047) :
    (headerWord c w h).toNat = c.toNat + w.toNat * 2 ^ 10 + h.toNat * 2 ^ 21 := by
  have hc : c.toNat < 2 ^ 10 := c.isLt
  have hlow : w.toNat <<< 10 + c.toNat < 2 ^ 21 := by rw [Nat.shiftLeft_eq]; omega
  calc (headerWord c w h).toNat
      = h.toNat <<< 21 ||| (w.toNat <<< 10 ||| c.toNat) := by
        simp only [headerWord, BitVec.toNat_or, BitVec.toNat_shiftLeft, BitVec.toNat_setWidth]
        rw [Nat.lor_comm, Nat.lor_comm (c.toNat % _)]
        simp only [Nat.shiftLeft_eq]
        congr 2 <;> omega
    _ = h.toNat <<< 21 + (w.toNat <<< 10 + c.toNat) := by
        rw [← Nat.shiftLeft_add_eq_or_of_lt hc, Nat.shiftLeft_add_eq_or_of_lt hlow]
    _ = c.toNat + w.toNat * 2 ^ 10 + h.toNat * 2 ^ 21 := by rw [Nat.shiftLeft_eq, Nat.shiftLeft_eq]; omega

/-- HDR past its checks (45 R191). -/
theorem exec_hdr_eq {s : State} {c : BitVec 10} (he : s.status.err = false) (hi : s.status.initOk = true)
    (hc : formatCode s.params s.l.fmt = some c) (hd : dimsFit s.l = true) :
    exec .hdr s = .next { s with res := headerWord c s.l.w s.l.h } := by
  have hbody : hdrBody s = .ok { s with res := headerWord c s.l.w s.l.h } := by
    simp only [hdrBody, hi, hd, hdrOrIllegal, hdr, hc, Option.map_some, require_true]
    rfl
  exact (runCommand_ok hdrBody he).trans (by rw [hbody, settle_ok])

/-- Settles O45: the word is `headerWord`, a sum of fields too small to reach one another. -/
theorem hdrWritesHeaderWord : Obligations.HdrWritesHeaderWord := by
  intro s c he hi hc hw hh
  have hd : dimsFit s.l = true := by simp only [dimsFit, hw, hh, decide_true, Bool.and_self]
  have hword := headerWord_toNat c hw hh
  have hcode : c.toNat < 2 ^ 10 := c.isLt
  refine ⟨headerWord c s.l.w s.l.h, hword, exec_hdr_eq he hi hc hd, ?_, ?_, ?_⟩ <;>
    rw [toNat_extractLsb'_eq, hword] <;> omega

end Sys2Proof.Machine
end

section
/-! PROOF. The Quantizer: rounding to the nearest multiple under both tie rules, its clamp, and the command TRUNC (00 R9, R10,
40 R100 to R108): O24, O25. -/

namespace Sys2Proof.Machine

variable {d : Int} {b : Nat}

/-! ### Rounding to the nearest (00 R10) -/

theorem rndHalfUp_nearest (n : Int) (hd : 0 < d) :
    -d ≤ 2 * (n - rndHalfUp n d * d) ∧ 2 * (n - rndHalfUp n d * d) < d := by
  have hle : (2 * n + d) / (2 * d) * (2 * d) ≤ 2 * n + d := Int.ediv_mul_le _ (by omega)
  have hlt : 2 * n + d < ((2 * n + d) / (2 * d) + 1) * (2 * d) := Int.lt_ediv_add_one_mul_self _ (by omega)
  unfold rndHalfUp
  constructor <;> linarith

/-- HALF_DOWN is the mirror image of HALF_UP. -/
theorem rndHalfDown_eq_neg (n d : Int) : rndHalfDown n d = -rndHalfUp (-n) d := by
  have harg : -(2 * n - d) = 2 * -n + d := by ring
  rw [rndHalfDown, ceilDivInt, rndHalfUp, harg]

theorem rndHalfDown_nearest (n : Int) (hd : 0 < d) :
    -d < 2 * (n - rndHalfDown n d * d) ∧ 2 * (n - rndHalfDown n d * d) ≤ d := by
  obtain ⟨hle, hlt⟩ := rndHalfUp_nearest (-n) hd
  rw [rndHalfDown_eq_neg]
  constructor <;> linarith

theorem rndQ_within_half (r : TieRule) (n : Int) (hd : 0 < d) :
    -d ≤ 2 * (n - rndQ r n d * d) ∧ 2 * (n - rndQ r n d * d) ≤ d := by
  cases r with
  | halfDown => exact (rndHalfDown_nearest n hd).imp_left le_of_lt
  | halfUp => exact (rndHalfUp_nearest n hd).imp_right le_of_lt

theorem rndHalfUp_mono (hd : 0 < d) : Monotone (rndHalfUp · d) := fun n n' h =>
  Int.ediv_le_ediv (by omega) (by omega : 2 * n + d ≤ 2 * n' + d)

theorem rndQ_mono (r : TieRule) (hd : 0 < d) : Monotone (rndQ r · d) := by
  cases r with
  | halfUp => exact rndHalfUp_mono hd
  | halfDown =>
    intro n n' h
    simp only [rndQ, rndHalfDown_eq_neg]
    exact neg_le_neg (rndHalfUp_mono hd (neg_le_neg h))

/-- A multiple of the divisor is rounded to itself: no other one is within half of it. -/
theorem rndQ_mul_self (r : TieRule) (q : Int) (hd : 0 < d) : rndQ r (q * d) d = q := by
  obtain ⟨hlow, hhigh⟩ := rndQ_within_half r (q * d) hd
  rw [← sub_mul] at hlow hhigh
  have hlt : q - rndQ r (q * d) d < 1 := by nlinarith
  have hgt : -1 < q - rndQ r (q * d) d := by nlinarith
  omega

/-! ### The clamp (00 R9) -/

theorem clamp_mono (lo hi : Int) : Monotone (clamp lo hi) := fun _ _ h => min_le_min_left _ (max_le_max_left _ h)

theorem clamp_mem {lo hi : Int} (h : lo ≤ hi) (v : Int) : lo ≤ clamp lo hi v ∧ clamp lo hi v ≤ hi :=
  ⟨le_min h (le_max_left ..), min_le_left ..⟩

theorem clamp_of_mem {lo hi v : Int} (h : lo ≤ v ∧ v ≤ hi) : clamp lo hi v = v := by
  rw [clamp, max_eq_right h.1, min_eq_right h.2]

/-- The clamp brings no value away from one within the bounds. -/
theorem abs_sub_clamp_le {lo hi v : Int} (h : lo ≤ v ∧ v ≤ hi) (w : Int) : |v - clamp lo hi w| ≤ |v - w| := by
  calc |v - clamp lo hi w| = |clamp lo hi v - clamp lo hi w| := by rw [clamp_of_mem h]
    _ ≤ |max lo v - max lo w| := by
        simpa only [clamp, min_comm hi] using abs_inf_sub_inf_le_abs (max lo v) (max lo w) hi
    _ ≤ |v - w| := by simpa only [max_comm lo] using abs_sup_sub_sup_le_abs v w lo

theorem clamp_mul_right (m q : Int) (hd : 0 ≤ d) : clamp 0 (m * d) (q * d) = clamp 0 m q * d := by
  rw [clamp, clamp, min_mul_of_nonneg _ _ hd, max_mul_of_nonneg _ _ hd, zero_mul]

/-! ### The Quantizer (40 R100, R108) -/

theorem quantStep_pos (b : Nat) : 0 < quantStep b := pow_pos two_pos _

/-- The number of the greatest level (40 R103). -/
theorem two_pow_sub_one_nonneg (b : Nat) : (0 : Int) ≤ 2 ^ b - 1 := sub_nonneg.2 (one_le_pow₀ one_le_two)

/-- trunc picks one of the levels 0 to 2^bits - 1 and multiplies it by step. -/
theorem truncTo_eq_level_mul (r : TieRule) (v : Int) (b : Nat) :
    truncTo r v b = clamp 0 (2 ^ b - 1) (rndQ r v (quantStep b)) * quantStep b :=
  clamp_mul_right _ _ (quantStep_pos b).le

theorem truncTo_mono (r : TieRule) (b : Nat) : Monotone (truncTo r · b) := fun _ _ h =>
  clamp_mono _ _ (mul_le_mul_of_nonneg_right (rndQ_mono r (quantStep_pos b) h) (quantStep_pos b).le)

theorem truncTo_mem (r : TieRule) (v : Int) (b : Nat) : 0 ≤ truncTo r v b ∧ truncTo r v b ≤ quantMax b :=
  clamp_mem (mul_nonneg (two_pow_sub_one_nonneg b) (quantStep_pos b).le) _

theorem quantStep_dvd_truncTo (r : TieRule) (v : Int) (b : Nat) : quantStep b ∣ truncTo r v b :=
  ⟨_, (truncTo_eq_level_mul r v b).trans (mul_comm _ _)⟩

/-- A multiple of step within the bounds is a fixed point. -/
theorem truncTo_of_dvd (r : TieRule) {v : Int} (hdvd : quantStep b ∣ v) (hmem : 0 ≤ v ∧ v ≤ quantMax b) :
    truncTo r v b = v := by
  obtain ⟨q, rfl⟩ := exists_eq_mul_left_of_dvd hdvd
  rw [truncTo, rndQ_mul_self r q (quantStep_pos b), clamp_of_mem hmem]

theorem truncTo_idem (r : TieRule) (v : Int) (b : Nat) : truncTo r (truncTo r v b) b = truncTo r v b :=
  truncTo_of_dvd r (quantStep_dvd_truncTo r v b) (truncTo_mem r v b)

theorem truncTo_within_half (r : TieRule) {v : Int} (hmem : 0 ≤ v ∧ v ≤ quantMax b) :
    2 * |v - truncTo r v b| ≤ quantStep b := by
  obtain ⟨hlow, hhigh⟩ := rndQ_within_half r v (quantStep_pos b)
  calc 2 * |v - truncTo r v b|
      ≤ 2 * |v - rndQ r v (quantStep b) * quantStep b| :=
        mul_le_mul_of_nonneg_left (abs_sub_clamp_le hmem _) zero_le_two
    _ = |2 * (v - rndQ r v (quantStep b) * quantStep b)| := by rw [abs_mul, abs_two]
    _ ≤ quantStep b := abs_le.2 ⟨hlow, hhigh⟩

/-- At 8 bits step is 1, and every integer is a multiple of it. -/
theorem truncTo_eight (r : TieRule) (v : Int) : truncTo r v 8 = clamp 0 255 v := by
  have hround : rndQ r v 1 = v := by simpa using rndQ_mul_self r v one_pos
  calc truncTo r v 8 = clamp 0 255 (rndQ r v 1 * 1) := rfl
    _ = clamp 0 255 v := by rw [mul_one, hround]

/-- Settles O25: one lemma for each property. -/
theorem quantizerProperties : Obligations.QuantizerProperties := by
  intro r b _ _ v
  obtain ⟨hnonneg, hle⟩ := truncTo_mem r v b
  exact ⟨fun _ h => truncTo_mono r b h, ⟨quantStep_dvd_truncTo r v b, hnonneg, hle⟩, truncTo_idem r v b,
    fun h0 h1 => truncTo_within_half r ⟨h0, h1⟩, truncTo_eight r v⟩

/-! ### TRUNC (40 R106) -/

/-- TRUNC with a depth the Quantizer has. -/
theorem exec_trunc_eq {s : State} {value : BitVec 12} {bits : BitVec 4} (he : s.status.err = false) (h1 : 1 ≤ bits.toNat)
    (h8 : bits.toNat ≤ 8) : exec (.trunc value bits) s =
      .next { s with res := BitVec.ofInt 32 (truncTo (tieRule s.params .truncCommand) value.toInt bits.toNat) } := by
  have hbody : truncBody value bits s =
      .ok { s with res := BitVec.ofInt 32 (truncTo (tieRule s.params .truncCommand) value.toInt bits.toNat) } := by
    simp only [truncBody, h1, h8, decide_true, Bool.and_self, require_true, bind_ok, pure_eq_ok]
  exact (runCommand_ok _ he).trans (by rw [hbody, settle_ok])

/-- TRUNC with any other depth. -/
theorem exec_trunc_raises {s : State} {value : BitVec 12} {bits : BitVec 4} (he : s.status.err = false)
    (h : ¬(1 ≤ bits.toNat ∧ bits.toNat ≤ 8)) : EntersError (.trunc value bits) s .cmdIllegal := by
  have hbody : truncBody value bits s = .error (.raise .cmdIllegal) := by
    simp only [truncBody, ← Bool.decide_and, decide_eq_false h, require_false, bind_error]
  exact (runCommand_ok _ he).trans (by rw [hbody, settle_raise])

/-- Settles O24: the integer is what `rndQ` gives, and its distance is that of the tie rule in force. -/
theorem truncRoundsAndClamps : Obligations.TruncRoundsAndClamps := by
  intro s value bits he
  refine ⟨fun h => exec_trunc_raises he (by omega), fun h1 h8 =>
    ⟨rndQ (tieRule s.params .truncCommand) value.toInt (quantStep bits.toNat), exec_trunc_eq he h1 h8,
      fun hr => ?_, fun hr => ?_⟩⟩
  · rw [hr]
    exact rndHalfDown_nearest value.toInt (quantStep_pos bits.toNat)
  · rw [hr]
    exact rndHalfUp_nearest value.toInt (quantStep_pos bits.toNat)

end Sys2Proof.Machine
end

section
/-! PROOF. The Disperser: its rounded shares, what ROWS and QPIX do where they are legal, and the commands out of turn (41 R112 to
R120, 42 R127, R134, 44 R175): O13, O26, O27, O28, O29. -/

namespace Sys2Proof.Machine

variable {s t : State}

/-! ### The shares of a residual (00 R10, 41 R114) -/

/-- Both tie rules round to a nearest multiple of 16. -/
theorem rnd16_within_half (k : ShareRule) (n : Int) : -8 ≤ n - 16 * rnd16 k n ∧ n - 16 * rnd16 k n ≤ 8 := by
  cases k with
  | halfUpPos => simp only [rnd16, rndHalfUp]; omega
  | halfAway =>
    simp only [rnd16, rndHalfAway]
    rcases lt_trichotomy n 0 with hn | rfl | hn
    · rw [Int.sign_eq_neg_one_of_neg hn]; omega
    · decide
    · rw [Int.sign_eq_one_of_pos hn]; omega

/-- Settles O29: the exact shares sum to the residual, and each of the four is rounded by at most a half. -/
theorem sharesSumToResidual : Obligations.SharesSumToResidual := by
  intro k r
  have h7 := rnd16_within_half k (7 * r)
  have h3 := rnd16_within_half k (3 * r)
  have h5 := rnd16_within_half k (5 * r)
  have h1 := rnd16_within_half k (1 * r)
  rw [abs_le]
  omega

/-- A sample lies at most 255 from any value the Quantizer gives. -/
theorem residual_bounds (r : TieRule) (smp : Byte) (v : Int) {b : Nat} (hb : b ≤ 8) :
    -255 ≤ (smp.toNat : Int) - truncTo r v b ∧ (smp.toNat : Int) - truncTo r v b ≤ 255 := by
  have hq := truncTo_bounds r v hb
  omega

/-! ### The accumulator (41 R114) -/

theorem getD_set_eq_ite {e : List Int} {j : Nat} (hj : j < e.length) (i : Nat) (v : Int) :
    (e.set i v).getD j 0 = if j = i then v else e.getD j 0 := by
  by_cases h : j = i
  · subst h
    simp [hj]
  · simp [h, Ne.symm h]

theorem getD_addAt {e : List Int} {j : Nat} (hj : j < e.length) (i : Nat) (v : Int) :
    (addAt e i v).getD j 0 = e.getD j 0 + if j = i then v else 0 := by
  rw [addAt, getD_set_eq_ite hj]
  split <;> simp [*]

@[simp] theorem length_addAt (e : List Int) (i : Nat) (v : Int) : (addAt e i v).length = e.length := List.length_set

/-- Every entry after a pixel at column x: entry x+1 begins from 0, the others from what they held. -/
theorem getD_spread {e : List Int} {j : Nat} (hj : j < e.length) (k : ShareRule) (x : Nat) (res : Int) :
    (spread k e x res).getD j 0 =
      (if j = x + 1 then 0 else e.getD j 0) + (if j = x then rnd16 k (3 * res) else 0) +
        (if j = x + 1 then rnd16 k (5 * res) else 0) + (if j = x + 2 then rnd16 k res else 0) := by
  rw [spread, getD_addAt (by simpa using hj), getD_addAt (by simpa using hj), getD_addAt (by simpa using hj),
    getD_set_eq_ite hj, one_mul]

/-! ### ROWS (41 R112) -/

/-- A command whose pseudocode raises enters the error state. -/
theorem runCommand_raises {b : State → Except Stop State} {c : ErrCode} (he : s.status.err = false)
    (hb : b s = .error (.raise c)) : runCommand s b = .next (raiseError c s) := by rw [runCommand_ok b he, hb, settle_raise]

/-- Settles O26. -/
theorem rowsClearsCarriedError : Obligations.RowsClearsCarriedError := by
  intro s he
  refine ⟨fun hi => ?_, fun hi => runCommand_raises he (by rw [rowsBody, hi, require_false, bind_error])⟩
  have hbody : rowsBody s = .ok { s with nerr := ⟨0, 0, 0⟩ } := by
    rw [rowsBody, hi, require_true, bind_ok, pure_eq_ok]
  exact (runCommand_ok _ he).trans (by rw [hbody, settle_ok])

/-! ### QPIX where it is legal (41 R113 to R116) -/

/-- QPIX where it is legal and its samples are written. -/
theorem exec_qpix_eq {e : Encoder} {d : Rgb Nat} {smp : Rgb Byte} (he : s.status.err = false) (hi : s.status.initOk = true)
    (hs : s.status.subDone s.cur.sub = false) (ha : s.status.actv = false) (hcur : currentEncoder s = some e)
    (hd : depths e = some d) (hsmp : ColourAtCursor s smp) : exec .qpix s = .next (quantizePixel s e d smp) := by
  have htrue : trueColourAt s = .ok (e, d) := trueColourAt_eq_ok.2 ⟨hcur, hd⟩
  have hread : sampleRgb s = .ok smp := sampleRgb_eq_ok.2 hsmp
  have hbody : qpixBody s = .ok (quantizePixel s e d smp) := by simp [qpixBody, hi, hs, ha, htrue, hread]
  exact (runCommand_ok _ he).trans (by rw [hbody, settle_ok])

theorem channelStep_of_dith (h : s.l.dith = true) (e : Encoder) (smp : Byte) (b : Nat) (n : Int) (earr : List Int) :
    channelStep s e smp b n earr =
      disperse (tieRule s.params (.encoder e)) s.params.dround s.cur.x.toNat smp b n earr := if_pos h

theorem channelStep_of_not_dith (h : s.l.dith = false) (e : Encoder) (smp : Byte) (b : Nat) (n : Int) (earr : List Int) :
    channelStep s e smp b n earr = bypass (tieRule s.params (.encoder e)) smp b n earr := if_neg (by simp [h])

/-- Settles O27: without dithering every channel is the bypass. -/
theorem qpixWithoutDither : Obligations.QpixWithoutDither := by
  intro s e d smp he hi hs ha hcur hd hdith hsmp
  rw [exec_qpix_eq he hi hs ha hcur hd hsmp]
  simp only [quantizePixel, channelStep_of_not_dith hdith, bypass]

/-- One channel with dithering is 41 R114 entry by entry. -/
theorem disperse_channelDispersed (r : TieRule) (k : ShareRule) (x : Nat) (smp : Byte) (b : Nat) (n : Int) (earr : List Int) :
    ChannelDispersed r k x smp b n (disperse r k x smp b n earr).nerr earr (disperse r k x smp b n earr).earr
      (BitVec.ofInt 8 (disperse r k x smp b n earr).q) :=
  ⟨rfl, rfl, length_spread .., fun _ hj => getD_spread hj ..⟩

/-- Settles O28: with dithering every channel is the Disperser's step. -/
theorem qpixWithDither : Obligations.QpixWithDither := by
  intro s e d smp he hi hs ha hcur hd hdith hsmp
  refine ⟨quantizePixel s e d smp, exec_qpix_eq he hi hs ha hcur hd hsmp, rfl, ?_⟩
  simp only [quantizePixel, channelStep_of_dith hdith]
  exact ⟨disperse_channelDispersed .., disperse_channelDispersed .., disperse_channelDispersed ..⟩

/-! ### Commands out of turn (41 R113, 42 R127, R134, 44 R175) -/

/-- A computation that ends early only by raising CMD_ILLEGAL, as the checks of turn do. -/
def OnlyIllegal {α : Type} (x : Except Stop α) : Prop := ∀ e, x = .error e → e = .raise .cmdIllegal

theorem OnlyIllegal.require {b : Bool} : OnlyIllegal (require b .cmdIllegal) := fun _ h => (require_eq_error.1 h).2

theorem OnlyIllegal.trueColourAt : OnlyIllegal (trueColourAt s) := by
  intro e h
  simp only [Machine.trueColourAt] at h
  split at h
  · split at h <;> cases h; rfl
  · cases h; rfl

theorem OnlyIllegal.paletteAt : OnlyIllegal (paletteAt s) := by
  intro e h
  simp only [Machine.paletteAt] at h
  split at h
  · split at h <;> cases h; rfl
  · cases h; rfl

/-- Checks one after the other raise CMD_ILLEGAL when they do so wherever the first one passes. -/
theorem bind_raises {α β : Type} {x : Except Stop α} {f : α → Except Stop β} (hx : OnlyIllegal x)
    (hf : ∀ a, x = .ok a → f a = .error (.raise .cmdIllegal)) : (x >>= f) = .error (.raise .cmdIllegal) := by
  cases x with
  | ok a => exact hf a rfl
  | error e => rw [hx e rfl, bind_error]

/-- The encoders with depths are the six true-colour ones (40 R107). -/
theorem mem_trueColour_of_depths {e : Encoder} {d : Rgb Nat} (h : depths e = some d) :
    e ∈ [Encoder.tc332, .tc565, .tc565s, .tc888, .tc8888, .pl565] := by
  cases e <;> cases h <;> decide

/-- The encoders with an index size are the four indexed ones (42 R125). -/
theorem mem_indexed_of_indexBits {e : Encoder} {k : Nat} (h : indexBits e = some k) :
    e ∈ [Encoder.i1, .i2, .i4, .i8] := by
  cases e <;> cases h <;> decide

/-- No palette where the current encoder is not indexed. -/
theorem paletteAt_ne_ok (h : ∀ e ∈ [Encoder.i1, .i2, .i4, .i8], currentEncoder s ≠ some e) (p : Nat) :
    paletteAt s ≠ .ok p := by
  intro hp
  obtain ⟨e, k, hcur, hk, -⟩ := paletteAt_eq_ok.1 hp
  exact h e (mem_indexed_of_indexBits hk) hcur

theorem qpix_raises (he : s.status.err = false)
    (h : s.status.subDone s.cur.sub = true ∨
      (∀ e ∈ [Encoder.tc332, .tc565, .tc565s, .tc888, .tc8888, .pl565], currentEncoder s ≠ some e) ∨
      s.status.actv = true) :
    EntersError .qpix s .cmdIllegal := by
  refine runCommand_raises he (bind_raises .require fun _ hturn => bind_raises .trueColourAt fun ⟨e, d⟩ hed =>
    bind_raises .require fun _ hactv => ?_)
  obtain ⟨hcur, hd⟩ := trueColourAt_eq_ok.1 hed
  simp only [require_eq_ok, Bool.and_eq_true, Bool.not_eq_true'] at hturn hactv
  obtain ⟨-, hopen⟩ := hturn
  rcases h with h | h | h
  · exact absurd (hopen.symm.trans h) (by decide)
  · exact absurd hcur (h e (mem_trueColour_of_depths hd))
  · exact absurd (hactv.symm.trans h) (by decide)

/-- The checks of PALB, which its two forms share (42 R127, R128). -/
theorem palbChecks_raises (h : (∀ e ∈ [Encoder.i1, .i2, .i4, .i8], currentEncoder s ≠ some e) ∨ s.status.palv = true) :
    palbChecks s = .error (.raise .cmdIllegal) := by
  refine bind_raises .require fun _ _ => bind_raises .paletteAt fun p hp => bind_raises .require fun _ hpalv => ?_
  rcases h with h | h
  · exact absurd hp (paletteAt_ne_ok h p)
  · simp [h] at hpalv

theorem palb_raises (he : s.status.err = false)
    (h : (∀ e ∈ [Encoder.i1, .i2, .i4, .i8], currentEncoder s ≠ some e) ∨ s.status.palv = true) :
    EntersError .palb s .cmdIllegal := by
  refine runCommand_raises he ?_
  split
  · rw [palbHold, palbChecks_raises h, bind_error]
  · rw [palbBody, palbChecks_raises h, bind_error]

theorem palr_raises (he : s.status.err = false)
    (h : (∀ e ∈ [Encoder.i1, .i2, .i4, .i8], currentEncoder s ≠ some e) ∨ s.status.palv = false) :
    EntersError .palr s .cmdIllegal := by
  refine runCommand_raises he (bind_raises .require fun _ _ => bind_raises .paletteAt fun p hp =>
    bind_raises .require fun _ hpalv => ?_)
  rcases h with h | h
  · exact absurd hp (paletteAt_ne_ok h p)
  · simp [h] at hpalv

theorem subc_raises (he : s.status.err = false) {i : BitVec 2}
    (h : s.l.nsub ≠ 4 ∨ i.toNat ≠ s.cur.sub.toNat + 1 ∨ s.status.subDone s.cur.sub = false) :
    EntersError (.subc i) s .cmdIllegal := by
  refine runCommand_raises he (bind_raises .require fun _ hfour => bind_raises .require fun _ hnext => ?_)
  simp only [require_eq_ok, Bool.and_eq_true, decide_eq_true_eq] at hfour hnext
  obtain ⟨-, hnsub⟩ := hfour
  obtain ⟨hindex, hdone⟩ := hnext
  rcases h with h | h | h
  · exact absurd hnsub h
  · exact absurd hindex h
  · exact absurd (hdone.symm.trans h) (by decide)

/-- Settles O13: one lemma for each of the four commands. -/
theorem outOfTurnRaises : Obligations.OutOfTurnRaises := fun _ he =>
  ⟨qpix_raises he, palb_raises he, palr_raises he, fun _ => subc_raises he⟩

end Sys2Proof.Machine
end

section
/-! PROOF. The bounds of the accumulator entries that QPIX will still read, and the ranges that follow (41 R118): O30, O31. A
predicate of the image under conversion is kept by every step when every command keeps it (`step_keeps`). -/

namespace Sys2Proof.Machine

variable {s t : State}

/-! ### A step keeps what every command keeps -/

/-- The same image at the same point of its conversion, with the same buffers. -/
structure SameImage (s t : State) : Prop where
  initOk : t.status.initOk = s.status.initOk
  subdone : t.status.subdone = s.status.subdone
  palv : t.status.palv = s.status.palv
  actv : t.status.actv = s.status.actv
  l : t.l = s.l
  cur : t.cur = s.cur
  act : t.act = s.act
  nerr : t.nerr = s.nerr
  earr : t.earr = s.earr
  pal : t.pal = s.pal
  remap : t.remap = s.remap
  obuf : t.obuf = s.obuf

theorem SameImage.dropBusy (s : State) : SameImage s (dropBusy s) := by
  unfold Machine.dropBusy
  split <;> constructor <;> rfl

theorem SameImage.storeRegister (s : State) (o : Nat) (v : Word) : SameImage s (storeRegister s o v) := by
  unfold Machine.storeRegister
  split <;> constructor <;> rfl

/-- A predicate of the image under conversion that every command keeps. It says nothing while INIT_OK = 0, as after error entry
and reset. -/
structure KeptByCommands (P : State → Prop) : Prop where
  sameImage : ∀ {s t : State}, P s → SameImage s t → P t
  noImage : ∀ {s : State}, s.status.initOk = false → P s
  exec : ∀ {s t : State} {i : Instr}, s.Inv → P s → exec i s = .next t → P t
  answer : ∀ {s t : State}, s.Inv → P s → palbBody s = .ok t → P t

section
variable {P : State → Prop}

/-- A command that ends keeps the predicate when its effect does. -/
theorem Ends.kept (hno : ∀ {u : State}, u.status.initOk = false → P u) {effect : Prop} (he : Ends s t effect) (h : P s)
    (hk : effect → P t) : P t := by
  rcases he with ⟨-, rfl⟩ | ⟨-, heff | ⟨c, -, rfl⟩⟩
  · exact h
  · exact hk heff
  · exact hno rfl

variable (hP : KeptByCommands P)
include hP

/-- A command word, legal or not (60 R220). -/
theorem issue_keeps (hinv : s.Inv) (h : P s) {w : Word} (hx : issue w s = .next t) : P t := by
  unfold issue at hx
  split at hx
  · cases hx; exact h
  · split at hx
    · exact hP.exec hinv h hx
    · cases hx; exact hP.noImage rfl

/-- The sequencer's turn (44 R182). -/
theorem sequencerTurn_keeps (hinv : s.Inv) (h : P s) (hx : sequencerTurn s = .next t) : P t := by
  unfold sequencerTurn at hx
  split at hx <;> rename_i hrun
  · cases hx; exact h
  · split at hx
    · cases hx; exact hP.sameImage h (.dropBusy s)
    · rename_i w rest hq
      have hrest : { s with pq := rest }.Inv :=
        { hinv with
          idle := fun hb => absurd hrun (by simp [show s.status.busy = false from hb])
          converting := fun hi => (hinv.converting hi).transfer rfl rfl rfl id id }
      obtain ⟨u, hu, rfl⟩ := thenDropBusy_eq_next.1 hx
      exact hP.sameImage (issue_keeps hP hrest (hP.sameImage h (by constructor <;> rfl)) hu) (.dropBusy u)

/-- The collaborator's answer (70 R239). -/
theorem answerTurn_keeps (hinv : s.Inv) (h : P s) (hx : answerTurn s = .next t) : P t := by
  unfold answerTurn at hx
  split at hx
  · have hfree : { s with waiting := false }.Inv :=
      { hinv with
        idle := fun hb => ⟨(hinv.idle hb).1, rfl⟩
        hold := nofun
        converting := fun hi => (hinv.converting hi).transfer rfl rfl rfl id id }
    have h' : P { s with waiting := false } := hP.sameImage h (by constructor <;> rfl)
    obtain ⟨u, hu, rfl⟩ := thenDropBusy_eq_next.1 hx
    exact hP.sameImage ((runCommand_ends .palbBody hu).kept hP.noImage h' (hP.answer hfree h')) (.dropBusy u)
  · cases hx; exact h

/-- Every access of the host (60 R226). -/
theorem hostTurn_keeps (hinv : s.Inv) (h : P s) {a : HostAccess} (hx : hostTurn s a = .next t) : P t := by
  cases a with
  | readReg o n => cases registerAccess_eq_next hx; exact hP.sameImage h (by constructor <;> rfl)
  | writeReg o n v =>
    have hx := registerAccess_eq_next hx
    split at hx
    · cases hx
    · split at hx
      · exact issue_keeps hP hinv h hx
      · cases hx; exact hP.sameImage h (.storeRegister s o v)
  | writeRaster a v =>
    simp only [hostTurn, writeRaster] at hx
    split at hx <;> cases hx
    exact hP.sameImage h (by constructor <;> rfl)
  | writeRawin a v =>
    simp only [hostTurn, writeRawin] at hx
    split at hx <;> cases hx
    exact hP.sameImage h (by constructor <;> rfl)
  | readOstream a =>
    simp only [hostTurn, readArtifact] at hx
    split at hx
    · split at hx <;> cases hx
      exact hP.sameImage h (by constructor <;> rfl)
    · cases hx

/-- One move of one agent. -/
theorem takeMove_keeps (hinv : s.Inv) (h : P s) {m : Move} (hx : takeMove m s = .next t) : P t := by
  cases m with
  | sequencer => exact sequencerTurn_keeps hP hinv h hx
  | host a => exact hostTurn_keeps hP hinv h hx
  | collabDefer b => cases hx; exact hP.sameImage h (by constructor <;> rfl)
  | collabAnswer => exact answerTurn_keeps hP hinv h hx
  | reset => cases hx; exact hP.noImage rfl

theorem step_keeps (hinv : s.Inv) (h : P s) (hx : step s = .next t) : P t := by
  simp only [step, nextMove] at hx
  split at hx
  · exact sequencerTurn_keeps hP hinv h hx
  · exact takeMove_keeps hP hinv.unseen (hP.sameImage h (by constructor <;> rfl)) hx

end

/-! ### The bounds of one accumulator -/

theorem getD_zeroEarr (w : BitVec 16) (i : Nat) : (zeroEarr w).getD i 0 = 0 := by
  rw [zeroEarr, List.getD_eq_getElem?_getD, List.getElem?_getD_replicate_default_eq]

/-- The accumulator INIT and SUBC leave (41 R121). -/
theorem earrBounded_zeroEarr (w : BitVec 16) (q : Nat) : EarrBounded w.toNat q (zeroEarr w) := by
  intro i _ _
  rw [getD_zeroEarr, earrBound]
  split_ifs <;> decide

/-- The row ends: the entries wait for the next one, the last of them with one share (41 R119). -/
theorem EarrBounded.nextRow {w : Nat} {e : List Int} (h : EarrBounded w w e) : EarrBounded w 0 e := by
  intro i hi hw
  have hold := h i hi hw
  simp only [earrBound] at hold ⊢
  split_ifs at hold ⊢ <;> omega

/-- A pixel at column x leaves one share at entry x+1, which it cleared, a second one at entry x and a third one at entry x+2
(41 R118). -/
theorem EarrBounded.spread {w x : Nat} {e : List Int} (h : EarrBounded w x e) (hlen : w < e.length) (k : ShareRule) {res : Int}
    (hres : -255 ≤ res ∧ res ≤ 255) : EarrBounded w (x + 1) (spread k e x res) := by
  intro i hi hw
  have hold := h i hi hw
  have h3 := rnd16_within_half k (3 * res)
  have h5 := rnd16_within_half k (5 * res)
  have h1 := rnd16_within_half k res
  rw [getD_spread (hw.trans_lt hlen)]
  simp only [earrBound] at hold ⊢
  split_ifs at hold ⊢ <;> omega

/-- One channel of QPIX with dithering. -/
theorem EarrBounded.channelStep {w : Nat} {earr : List Int} (h : EarrBounded w s.cur.x.toNat earr) (hlen : earr.length = w + 2)
    (hdith : s.l.dith = true) (e : Encoder) (smp : Byte) {b : Nat} (hb : b ≤ 8) (n : Int) :
    EarrBounded w (s.cur.x.toNat + 1) (channelStep s e smp b n earr).earr := by
  rw [channelStep_of_dith hdith]
  exact h.spread (by omega) _ (residual_bounds _ smp _ hb)

/-! ### The bounds through a conversion -/

theorem State.DitherInv.sameImage (h : s.DitherInv) (hsame : SameImage s t) : t.DitherInv := by
  intro hi hd hs he
  have hcur : currentEncoder t = currentEncoder s := by rw [currentEncoder, currentEncoder, hsame.l, hsame.cur]
  rw [Status.subDone, hsame.subdone, hsame.cur] at hs
  rw [quantizedInRow, hsame.l, hsame.earr, hsame.cur, hsame.actv]
  exact h (hsame.initOk ▸ hi) (hsame.l ▸ hd) hs (hcur ▸ he)

/-- The bounds hold where INIT or SUBC has cleared the accumulators. -/
theorem ditherInv_of_zeroEarr (h : t.earr = ⟨zeroEarr t.l.w, zeroEarr t.l.w, zeroEarr t.l.w⟩) : t.DitherInv := fun _ _ _ _ =>
  h ▸ ⟨earrBounded_zeroEarr _ _, earrBounded_zeroEarr _ _, earrBounded_zeroEarr _ _⟩

/-- There are no bounds to keep where QPIX is not legal: while INIT_OK = 0, once the sub-conversion is complete, and in a pass
of another encoder (41 R113). -/
theorem ditherInv_of_initOk (h : t.status.initOk = false) : t.DitherInv := fun hi _ _ _ => absurd (hi.symm.trans h) (by decide)

theorem ditherInv_of_subDone (h : t.status.subDone t.cur.sub = true) : t.DitherInv := fun _ _ hs _ =>
  absurd (hs.symm.trans h) (by decide)

theorem ditherInv_of_currentEncoder (h : (currentEncoder t).any isTrueColour = false) : t.DitherInv := fun _ _ _ he =>
  absurd (he.symm.trans h) (by decide)

/-- Where a pixel of a true-colour pass is still to come the cursor is inside the raster. -/
theorem State.Inv.cursor_lt (h : s.Inv) {e : Encoder} (hi : s.status.initOk = true) (hs : s.status.subDone s.cur.sub = false)
    (hcur : currentEncoder s = some e) (he : isTrueColour e = true) :
    s.cur.x.toNat < s.l.w.toNat ∧ s.cur.y.toNat < s.l.h.toNat := by
  have hraw : isRaw s.l.fmt = false := by
    rw [isRaw_of_currentEncoder hcur]
    exact decide_eq_false fun h => by simp [h, isTrueColour, depths] at he
  have hok := (h.converting hi).pixelCursor hraw
  rw [State.CursorOk, hs] at hok
  exact ⟨hok.1, hok.2.1⟩

/-- QPIX where it is legal: one more pixel of the row is quantized. -/
theorem State.DitherInv.quantizePixel (h : s.DitherInv) (hinv : s.Inv) {e : Encoder} {d : Rgb Nat} (smp : Rgb Byte)
    (hd : depths e = some d) (ha : s.status.actv = false) : (quantizePixel s e d smp).DitherInv := by
  intro hi hdith hs he
  have hbound := h hi hdith hs he
  rw [quantizedInRow, ha] at hbound
  obtain ⟨br, bg, bb⟩ := hbound
  obtain ⟨er, eg, eb⟩ := hinv.earr
  obtain ⟨dr, dg, db⟩ := depths_le hd
  exact ⟨br.channelStep er hdith e smp.r dr _, bg.channelStep eg hdith e smp.g dg _, bb.channelStep eb hdith e smp.b db _⟩

/-- Only the planar format has a second pass, and it is an alpha plane (41 R111). -/
theorem isTrueColour_second_pass {l : Latched} (h : nPass l.fmt = 2) (i : BitVec 2) :
    (encSel l i true).any isTrueColour = false := by
  have hf : l.fmt = .planar565a8 := by
    unfold nPass at h
    split at h
    · assumption
    · omega
  rw [encSel, hf]
  rfl

/-- The advance keeps the bounds when they hold at the next pixel: the pass after this one is not dithered, and nothing is once
the sub-conversion is complete. -/
theorem ditherInv_advance (h : { s with cur := s.cur.nextXY s.l }.DitherInv) : (advance s).DitherInv := by
  rcases advance_cases s with ⟨-, ht⟩ | ⟨-, hlast, ht⟩ | ⟨-, -, ht⟩ <;> rw [ht]
  · exact h
  · exact ditherInv_of_currentEncoder (isTrueColour_second_pass (nPass_eq_two_of_lt hlast) _)
  · refine ditherInv_of_subDone ?_
    rw [s.cur.nextXY_sub s.l]
    exact Status.subDone_complete_same _ _

/-- The accumulators when the cursor has moved to the next pixel: in the same row as many are quantized as before, in the next
one none. -/
theorem EarrBounded.nextXY {c : Cursor} {l : Latched} (hx : c.x.toNat < l.w.toNat) {e : List Int}
    (h : EarrBounded l.w.toNat (c.x.toNat + 1) e) : EarrBounded l.w.toNat (c.nextXY l).x.toNat e := by
  unfold Cursor.nextXY
  split <;> rename_i hw <;> dsimp only
  · have hlast : c.x.toNat + 1 = l.w.toNat := by bv_omega
    exact (hlast ▸ h).nextRow
  · have hnext : (c.x + 1).toNat = c.x.toNat + 1 := by bv_omega
    rwa [hnext]

theorem currentEncoder_nextXY (s : State) : currentEncoder { s with cur := s.cur.nextXY s.l } = currentEncoder s := by
  simp only [currentEncoder, Cursor.nextXY_sub, Cursor.nextXY_pass]

/-- The end of a pixel encoder (43 R140). -/
theorem State.DitherInv.afterPixel (h : s.DitherInv) (hinv : s.Inv) {e : Encoder} (hc : encoderChecks e s = .ok ()) :
    (afterPixel e s).DitherInv := by
  obtain ⟨hi, hs, hcur, hready⟩ := encoderChecks_eq_ok.1 hc
  unfold Machine.afterPixel
  cases he : isTrueColour e with
  | false =>
    show (advance s).DitherInv
    exact ditherInv_advance (ditherInv_of_currentEncoder (by rw [currentEncoder_nextXY, hcur]; exact he))
  | true =>
    refine ditherInv_advance fun _ hdith _ _ => ?_
    have ha : s.status.actv = true := by simpa [encoderReady, he] using hready
    have hx := (hinv.cursor_lt hi hs hcur he).1
    have hbound := h hi hdith hs (by rw [hcur]; exact he)
    rw [quantizedInRow, ha] at hbound
    obtain ⟨br, bg, bb⟩ := hbound
    exact ⟨br.nextXY hx, bg.nextXY hx, bb.nextXY hx⟩

/-! ### Every command keeps the bounds -/

theorem Ends.ditherInv {effect : Prop} (he : Ends s t effect) (h : s.DitherInv) (hk : effect → t.DitherInv) : t.DitherInv :=
  he.kept ditherInv_of_initOk h hk

/-- The pixel encoders (43 R140). -/
theorem exec_encoder_ditherInv (hinv : s.Inv) (h : s.DitherInv) {e : Encoder} (he : e ≠ .raw)
    (hx : exec (encoderInstr e) s = .next t) : t.DitherInv := by
  refine (exec_encoder_ends he hx).ditherInv h fun ⟨hc, m, hw, ht⟩ => ?_
  have hm : m.wf := by simpa using writePixel_wf hinv.memory.curObuf hw
  have h' : (setCurObuf s m).DitherInv := h
  exact ht ▸ h'.afterPixel (hinv.setCurObuf hm) hc

/-- PALB to its end writes no dither state (42 R127). -/
theorem palbBody_ditherInv (h : s.DitherInv) (hb : palbBody s = .ok t) : t.DitherInv := by
  obtain ⟨p, image, -, -, hacc⟩ := palbBody_eq_ok.1 hb
  obtain ⟨-, rfl⟩ := acceptAnswer_eq_ok.1 hacc
  exact h

/-- INIT clears the accumulators (41 R121). -/
theorem exec_init_ditherInv (hx : exec .init s = .next t) : t.DitherInv := by
  rcases exec_init_eq_next hx with ⟨f, -, -, rfl⟩ | ⟨c, -, rfl⟩
  · exact ditherInv_of_zeroEarr (by rw [startImage_earr, startImage_l])
  · exact ditherInv_of_initOk rfl

theorem exec_run_ditherInv (hx : exec .run s = .next t) : t.DitherInv := by
  rcases exec_run_eq_next hx with ⟨u, -, hinit, rfl⟩ | ⟨c, -, rfl⟩
  · have h : u.DitherInv := exec_init_ditherInv hinit
    exact h
  · exact ditherInv_of_initOk rfl

/-- SUBC clears the accumulators (41 R121). -/
theorem exec_subc_ditherInv (h : s.DitherInv) {i : BitVec 2} (hx : exec (.subc i) s = .next t) : t.DitherInv := by
  refine (exec_subc_ends hx).ditherInv h fun ⟨_, _, _, _, ht⟩ => ?_
  split at ht <;> subst ht <;> exact ditherInv_of_zeroEarr rfl

/-- Every command keeps the bounds: the encoders move the cursor, QPIX writes the accumulators, INIT, RUN and SUBC clear them,
ENC.RAW completes the sub-conversion, and the others leave all of these alone. -/
theorem exec_ditherInv (hinv : s.Inv) (h : s.DitherInv) {i : Instr} (hx : exec i s = .next t) : t.DitherInv := by
  rcases Instr.cases_encoder i with
    ⟨e, he, rfl⟩ | rfl | rfl | rfl | rfl | rfl | rfl | ⟨v, b, rfl⟩ | rfl | rfl | rfl | rfl | ⟨k, rfl⟩
  · exact exec_encoder_ditherInv hinv h he hx
  · exact (exec_raw_ends hx).ditherInv h fun ⟨_, _, _, ht⟩ => ht ▸ ditherInv_of_subDone (Status.subDone_complete_same _ _)
  · exact exec_init_ditherInv hx
  · exact exec_run_ditherInv hx
  · refine (exec_palb_ends hx).ditherInv h fun heff => ?_
    rcases heff with ⟨-, hb⟩ | ⟨-, -, rfl⟩
    · exact palbBody_ditherInv h hb
    · exact h
  · exact (exec_rows_ends hx).ditherInv h fun ⟨_, ht⟩ => ht ▸ h
  · exact (exec_qpix_ends hx).ditherInv h fun ⟨_, _, ha, _, _, smp, _, hd, _, ht⟩ => ht ▸ h.quantizePixel hinv smp hd ha
  · exact (exec_trunc_ends hx).ditherInv h fun ⟨_, _, ht⟩ => ht ▸ h
  · exact (exec_palr_ends hx).ditherInv h fun ⟨_, _, _, _, _, _, ht⟩ => ht ▸ h
  · exact (exec_hdr_ends hx).ditherInv h fun ⟨_, _, ht⟩ => ht ▸ h
  · exact (exec_serb_ends hx).ditherInv h fun ⟨_, _, _, _, _, ht⟩ => ht ▸ h
  · exact (exec_sert_ends hx).ditherInv h fun ⟨_, _, _, ht⟩ => ht ▸ h
  · exact exec_subc_ditherInv h hx

theorem ditherInv_keptByCommands : KeptByCommands State.DitherInv where
  sameImage := State.DitherInv.sameImage
  noImage := ditherInv_of_initOk
  exec := fun hinv h hx => exec_ditherInv hinv h hx
  answer := fun _ => palbBody_ditherInv

/-- Settles O30: every command keeps the bounds, so every step does. -/
theorem stepKeepsDitherBounds : Obligations.StepKeepsDitherBounds := fun _ _ => step_keeps ditherInv_keptByCommands

/-! ### The ranges of the Disperser's values (41 R118) -/

/-- A sample plus a carried error and an accumulator entry in their ranges. -/
theorem workingValue_bounds (smp : Byte) {n : Int} (hn : -112 ≤ n ∧ n ≤ 112) {e : List Int} {x : Nat}
    (he : -144 ≤ e.getD (x + 1) 0 ∧ e.getD (x + 1) 0 ≤ 144) :
    -256 ≤ workingValue smp n e x ∧ workingValue smp n e x ≤ 511 := by
  rw [workingValue]
  omega

/-- The entry QPIX reads holds at most three shares. -/
theorem State.DitherInv.entry_bounds (h : s.DitherInv) (hinv : s.Inv) (hi : s.status.initOk = true) (hd : s.l.dith = true)
    (hs : s.status.subDone s.cur.sub = false) (ha : s.status.actv = false) (he : (currentEncoder s).any isTrueColour = true) :
    AllChannels (fun e : List Int => -144 ≤ e.getD (s.cur.x.toNat + 1) 0 ∧ e.getD (s.cur.x.toNat + 1) 0 ≤ 144) s.earr := by
  obtain ⟨e, hcur, htrue⟩ := (Option.any_eq_true ..).1 he
  have hx := (hinv.cursor_lt hi hs hcur htrue).1
  have hbound := h hi hd hs he
  rw [quantizedInRow, ha] at hbound
  obtain ⟨br, bg, bb⟩ := hbound
  have hread : earrBound s.cur.x.toNat (s.cur.x.toNat + 1) = 144 := if_pos rfl
  have hentry : ∀ {e : List Int}, EarrBounded s.l.w.toNat s.cur.x.toNat e →
      -144 ≤ e.getD (s.cur.x.toNat + 1) 0 ∧ e.getD (s.cur.x.toNat + 1) 0 ≤ 144 := fun b => by
    simpa only [hread] using b _ (Nat.succ_pos _) hx
  exact ⟨hentry br, hentry bg, hentry bb⟩

/-- Settles O31: the working value is the sum of a sample, the carried error and the entry that is read. -/
theorem workingValueInRange : Obligations.WorkingValueInRange := by
  refine ⟨fun r smp v b _ hb => residual_bounds r smp v hb, fun s smp hinv h hi hd hs ha he => ?_⟩
  obtain ⟨er, eg, eb⟩ := h.entry_bounds hinv hi hd hs ha he
  obtain ⟨nr, ng, nb⟩ := hinv.nerr
  exact ⟨⟨er, eg, eb⟩, ⟨nr, ng, nb⟩, workingValue_bounds _ nr er, workingValue_bounds _ ng eg, workingValue_bounds _ nb eb⟩

end Sys2Proof.Machine
end

section
/-! PROOF. The Palette Adapter: what PALB builds from an answer that keeps the contract and does with one that breaks it, the
palette hold, and PALR (42 R125 to R134, 70 R239): O32, O33, O34, O35. -/

namespace Sys2Proof.Machine

variable {s t : State}

/-! ### Lists cut into parts of one length -/

theorem length_flatten_of_length {α : Type} {L : List (List α)} {n : Nat} (h : ∀ part ∈ L, part.length = n) :
    L.flatten.length = n * L.length := by
  rw [List.length_flatten, List.sum_eq_card_nsmul _ n (by simpa using h), List.length_map, smul_eq_mul, Nat.mul_comm]

theorem getElem?_flatten_of_length {α : Type} {L : List (List α)} {n : Nat} (h : ∀ part ∈ L, part.length = n) (y : Nat)
    {x : Nat} (hx : x < n) : L.flatten[n * y + x]? = L[y]?.bind (·[x]?) := by
  induction L generalizing y with
  | nil => rfl
  | cons part L ih =>
    obtain ⟨hpart, hL⟩ := List.forall_mem_cons.1 h
    rw [List.flatten_cons, List.getElem?_append, hpart]
    cases y with
    | zero => simp [hx]
    | succ y =>
      have hbeyond : ¬ n * (y + 1) + x < n := by rw [Nat.mul_succ]; omega
      have hrest : n * (y + 1) + x - n = n * y + x := by rw [Nat.mul_succ]; omega
      rw [if_neg hbeyond, hrest, ih hL, List.getElem?_cons_succ]

/-! ### Colours in a memory, four bytes each (20 R63, 42 R130) -/

section
variable {bytes : Color → List Byte} {cs : List Color}

theorem read_writeList_color (hlen : ∀ c, (bytes c).length = 4) (m : Memory) {i j : Nat} {c : Color} (hc : cs[i]? = some c)
    (hj : j < 4) : Memory.read (Memory.writeList m 0 (cs.flatMap bytes)) (4 * i + j) = (bytes c)[j]? := by
  have hparts : ∀ part ∈ cs.map bytes, part.length = 4 := by simpa using fun c _ => hlen c
  have hi : i < cs.length := (List.getElem?_eq_some_iff.1 hc).1
  have hin : 0 ≤ 4 * i + j ∧ 4 * i + j < 0 + (cs.flatMap bytes).length := by
    rw [List.flatMap_def, length_flatten_of_length hparts, List.length_map]
    omega
  rw [Memory.read_writeList, if_pos hin, List.flatMap_def, Nat.sub_zero, getElem?_flatten_of_length hparts i hj,
    List.getElem?_map, hc, Option.map_some, Option.bind_some]

theorem read_writeList_colors_beyond (hlen : ∀ c, (bytes c).length = 4) (m : Memory) {p : Nat} (hp : 4 * cs.length ≤ p) :
    Memory.read (Memory.writeList m 0 (cs.flatMap bytes)) p = Memory.read m p := by
  have hparts : ∀ part ∈ cs.map bytes, part.length = 4 := by simpa using fun c _ => hlen c
  rw [Memory.read_writeList, if_neg]
  rw [List.flatMap_def, length_flatten_of_length hparts, List.length_map]
  omega

end

/-- The palette region holds each entry as B, G, R, A (42 R130). -/
theorem read_region (m : Memory) {pal : List Color} {p i : Nat} {c : Color} (hi : i < p) (hc : pal[i]? = some c) :
    let region := Memory.writeList m 0 (regionBytes pal p)
    Memory.read region (4 * i) = some c.b ∧ Memory.read region (4 * i + 1) = some c.g ∧
      Memory.read region (4 * i + 2) = some c.r ∧ Memory.read region (4 * i + 3) = some c.a := by
  have hentry : (pal.take p)[i]? = some c := by rw [List.getElem?_take_of_lt hi, hc]
  have hread : ∀ j < 4, Memory.read (Memory.writeList m 0 (regionBytes pal p)) (4 * i + j) = (bgraBytes c)[j]? :=
    fun _ => read_writeList_color (fun _ => rfl) m hentry
  exact ⟨hread 0 (by decide), hread 1 (by decide), hread 2 (by decide), hread 3 (by decide)⟩

/-- REMAP holds each pixel of an image of width w as R, G, B, A (20 R63). -/
theorem read_remapped (m : Memory) {image : List (List Color)} {w : Nat} (hwidth : ∀ row ∈ image, row.length = w) {x y : Nat}
    {row : List Color} {c : Color} (hrow : image[y]? = some row) (hc : row[x]? = some c) :
    let remap := Memory.writeList m 0 (image.flatten.flatMap rgbaBytes)
    Memory.read remap (4 * (w * y + x)) = some c.r ∧ Memory.read remap (4 * (w * y + x) + 1) = some c.g ∧
      Memory.read remap (4 * (w * y + x) + 2) = some c.b ∧ Memory.read remap (4 * (w * y + x) + 3) = some c.a := by
  have hx : x < w := hwidth row (List.mem_of_getElem? hrow) ▸ (List.getElem?_eq_some_iff.1 hc).1
  have hpixel : image.flatten[w * y + x]? = some c := by
    rw [getElem?_flatten_of_length hwidth y hx, hrow, Option.bind_some, hc]
  have hread : ∀ j < 4, Memory.read (Memory.writeList m 0 (image.flatten.flatMap rgbaBytes)) (4 * (w * y + x) + j) =
    (rgbaBytes c)[j]? := fun _ => read_writeList_color (fun _ => rfl) m hpixel
  exact ⟨hread 0 (by decide), hread 1 (by decide), hread 2 (by decide), hread 3 (by decide)⟩

/-- The whole palette, the list and then zeroes (42 R129). -/
theorem getElem?_paletteOf (cs : List Color) {i : Nat} (hi : i < 256) : (paletteOf cs)[i]? = some (cs.getD i zeroColor) := by
  rw [paletteOf, List.getElem?_append]
  split
  · simp [*]
  · rw [List.getElem?_replicate_of_lt (by omega), List.getD_eq_default _ _ (by omega)]

/-! ### The image PALB hands over (42 R127) -/

theorem fetchRow_eq_ok_of_colors {sp : Space} {m : Memory} {a : Nat} {row : List Color}
    (h : ∀ x < row.length, fetchColor sp m (a + 4 * x) = .ok (row.getD x zeroColor)) :
    fetchRow sp m a row.length = .ok row := by
  induction row generalizing a with
  | nil => rfl
  | cons c row ih =>
    have hfirst : fetchColor sp m a = .ok c := h 0 (Nat.succ_pos _)
    have hrest : fetchRow sp m (a + 4) row.length = .ok row := ih fun x hx => by
      rw [show a + 4 + 4 * x = a + 4 * (x + 1) by ring]
      exact h (x + 1) (Nat.succ_lt_succ hx)
    simp [fetchRow, hfirst, hrest]

theorem fetchRows_eq_ok_of_rows {sp : Space} {m : Memory} {w a : Nat} {image : List (List Color)}
    (h : ∀ y < image.length, fetchRow sp m (a + 4 * (w * y)) w = .ok (image.getD y [])) :
    fetchRows sp m w a image.length = .ok image := by
  induction image generalizing a with
  | nil => rfl
  | cons row image ih =>
    have hfirst : fetchRow sp m a w = .ok row := h 0 (Nat.succ_pos _)
    have hrest : fetchRows sp m w (a + 4 * w) image.length = .ok image := ih fun y hy => by
      rw [show a + 4 * w + 4 * (w * y) = a + 4 * (w * (y + 1)) by ring]
      exact h (y + 1) (Nat.succ_lt_succ hy)
    simp [fetchRows, hfirst, hrest]

/-- PALB reads the image that RASTER holds. -/
theorem rasterImage_of_imageInRaster {image : List (List Color)} (h : ImageInRaster s image) : rasterImage s = .ok image := by
  obtain ⟨hrows, hwidth, hpixels⟩ := h
  rw [rasterImage, ← hrows]
  refine fetchRows_eq_ok_of_rows fun y hy => ?_
  have hrow : (image.getD y []).length = s.l.w.toNat := by
    rw [List.getD_eq_getElem _ _ hy]; exact hwidth _ (List.getElem_mem hy)
  rw [← hrow]
  refine fetchRow_eq_ok_of_colors fun x hx => fetchColor_eq_ok.2 ?_
  rw [hrow, show 0 + 4 * (s.l.w.toNat * y) + 4 * x = 4 * (s.l.w.toNat * y + x) by ring]
  exact hpixels y (hrows ▸ hy) x (hrow ▸ hx)

/-! ### PALB with the answer at once (42 R127 to R132) -/

/-- The contract of 42 R132 in the words of the statements. -/
theorem answerOk_iff {l : Latched} {p : Nat} {a : PalAnswer} : answerOk l p a = true ↔
    a.colors.length ≤ p ∧ a.remap.length = l.h.toNat ∧ ∀ row ∈ a.remap, row.length = l.w.toNat := by
  simp [answerOk, and_assoc]

/-- PALB whose collaborator answers at once (42 R128). -/
theorem exec_palb_answered (he : s.status.err = false) (hd : s.collabDefers = false) :
    exec .palb s = settle s (palbBody s) := by
  refine (runCommand_ok _ he).trans ?_
  rw [hd]; rfl

/-- PALB whose collaborator defers its answer (42 R128). -/
theorem exec_palb_deferred (he : s.status.err = false) (hd : s.collabDefers = true) :
    exec .palb s = settle s (palbHold s) := by
  refine (runCommand_ok _ he).trans ?_
  rw [hd]; rfl

/-- PALB where it is legal and the image is written goes on to the collaborator's answer. -/
theorem exec_palb_eq {e : Encoder} {k : Nat} {image : List (List Color)} (he : s.status.err = false)
    (hi : s.status.initOk = true) (hcur : currentEncoder s = some e) (hk : indexBits e = some k) (hv : s.status.palv = false)
    (hd : s.collabDefers = false) (himage : ImageInRaster s image) :
    exec .palb s = settle s (acceptAnswer (palSize k) (collaborator s (palRequest s.l image (palSize k))) s) := by
  have hchecks : palbChecks s = .ok (palSize k) := palbChecks_eq_ok.2 ⟨hi, paletteAt_eq_ok.2 ⟨e, k, hcur, hk, rfl⟩, hv⟩
  have hbody : palbBody s = acceptAnswer (palSize k) (collaborator s (palRequest s.l image (palSize k))) s := by
    simp [palbBody, hchecks, rasterImage_of_imageInRaster himage]
  rw [exec_palb_answered he hd, hbody]

/-- Settles O32: the accepted answer's list is the palette, its entries the region (`read_region`), its remapped rows REMAP
(`read_remapped`). -/
theorem palbBuildsPalette : Obligations.PalbBuildsPalette := by
  intro s e k image ans he hi hcur hk hv hd himage hans hlen hrows hwidth
  have hp : 2 ^ k ≤ 256 := palSize_le hk
  have hpal : (paletteOf ans.colors).length = 256 := length_paletteOf (hlen.trans hp)
  have hpixels : ans.remap.flatten.length = s.l.w.toNat * s.l.h.toNat := by rw [length_flatten_of_length hwidth, hrows]
  have hregion : ((paletteOf ans.colors).take (2 ^ k)).length = 2 ^ k := by rw [List.length_take, hpal, min_eq_left hp]
  obtain ⟨t, hacc⟩ : ∃ t, acceptAnswer (2 ^ k) ans s = .ok t :=
    ⟨_, acceptAnswer_eq_ok.2 ⟨answerOk_iff.2 ⟨hlen, hrows, hwidth⟩, rfl⟩⟩
  refine ⟨t, ?_, ?_⟩
  · rw [exec_palb_eq he hi hcur hk hv hd himage]
    exact congrArg (settle s) (hans ▸ hacc)
  obtain ⟨-, rfl⟩ := acceptAnswer_eq_ok.1 hacc
  simp only [setCurObuf_obuf, Obufs.get_set_same]
  exact ⟨rfl, hpal, fun i hi => getElem?_paletteOf _ hi, fun i hi c hc => read_region _ hi hc,
    fun p hp => read_writeList_colors_beyond (fun _ => rfl) _ (hregion.symm ▸ hp), fun i hi => Obufs.get_set_other _ _ hi,
    fun x y row c hrow hc => read_remapped _ hwidth hrow hc,
    fun p hp => read_writeList_colors_beyond (fun _ => rfl) _ (hpixels.symm ▸ hp)⟩

/-- Settles O33: a broken contract raises, and error entry keeps what it does not name. -/
theorem palbRejectsBadAnswer : Obligations.PalbRejectsBadAnswer := by
  intro s e k image ans he hi hcur hk hv hd himage hans hbad
  refine ⟨?_, rfl, rfl, rfl, rfl⟩
  have hreject : answerOk s.l (palSize k) ans = false := by
    rw [Bool.eq_false_iff, ne_eq, answerOk_iff]
    rintro ⟨hlen, hrows, hwidth⟩
    rcases hbad with h | h | ⟨row, hrow, h⟩
    · exact absurd hlen (Nat.not_le.2 h)
    · exact h hrows
    · exact h (hwidth row hrow)
  have hacc : acceptAnswer (palSize k) ans s = .error (.raise .ieCollaborator) := by
    rw [acceptAnswer, hreject, require_false, bind_error]
  rw [EntersError, exec_palb_eq he hi hcur hk hv hd himage]
  exact congrArg (settle s) (hans ▸ hacc)

/-! ### The palette hold (42 R128, 70 R239) -/

theorem OnlyIllegal.palbChecks : OnlyIllegal (palbChecks s) := by
  intro x h
  simp only [Machine.palbChecks, bind_eq_error, pure_eq_ok, reduceCtorEq, and_false, exists_false, or_false] at h
  rcases h with h | ⟨-, -, h | ⟨-, -, h⟩⟩
  · exact OnlyIllegal.require x h
  · exact OnlyIllegal.paletteAt x h
  · exact OnlyIllegal.require x h

/-- A computation that reads an input memory never raises. -/
theorem Reads.ne_raise {α : Type} {sp : Space} {m : Memory} {a n : Nat} {x : Except Stop α} (h : Reads sp m a n x)
    (c : ErrCode) : x ≠ .error (.raise c) := by
  intro hx
  by_cases hall : ∀ j < n, Memory.read m (a + j) ≠ none
  · obtain ⟨r, hr⟩ := h.ends hall
    cases hx.symm.trans hr
  · push Not at hall
    obtain ⟨hlt, hnone⟩ := Nat.find_spec hall
    have hfault := h.stops _ hlt ⟨fun i hi hi0 => Nat.find_min hall hi ⟨hi.trans hlt, hi0⟩, hnone⟩
    cases hx.symm.trans hfault

/-- A PALB that builds the palette or rejects the answer is legal and has read the whole image, so it can also begin the hold. -/
theorem palbHold_of_palbBody (h : (∃ u, palbBody s = .ok u) ∨ palbBody s = .error (.raise .ieCollaborator)) :
    palbHold s = .ok { s with waiting := true, status := { s.status with busy := true } } := by
  refine palbHold_eq_ok.2 ?_
  rcases h with ⟨u, hu⟩ | hraise
  · obtain ⟨p, image, hp, himage, -⟩ := palbBody_eq_ok.1 hu
    exact ⟨⟨p, hp⟩, ⟨image, himage⟩, rfl⟩
  · simp only [palbBody, bind_eq_error] at hraise
    rcases hraise with h | ⟨p, hp, h | ⟨image, himage, -⟩⟩
    · cases OnlyIllegal.palbChecks _ h
    · exact absurd h (Reads.fetchRows.ne_raise _)
    · exact ⟨⟨p, hp⟩, ⟨image, himage⟩, rfl⟩

/-- The state with BUSY and the collaborator's choice to defer replaced, the two fields in which the states of a PALB answered at
once and of one answered after a hold differ. -/
def State.withBusyDefers (s : State) (busy defers : Bool) : State :=
  { s with collabDefers := defers, status := { s.status with busy := busy } }

theorem palbBody_withBusyDefers (s : State) (b d : Bool) :
    palbBody (s.withBusyDefers b d) = (palbBody s).map (·.withBusyDefers b d) := by
  have hacc : ∀ p a, acceptAnswer p a (s.withBusyDefers b d) = (acceptAnswer p a s).map (·.withBusyDefers b d) := fun p a => by
    have hok : answerOk (s.withBusyDefers b d).l p a = answerOk s.l p a := rfl
    rw [acceptAnswer, acceptAnswer, hok]
    cases answerOk s.l p a <;> rfl
  have hchecks : palbChecks (s.withBusyDefers b d) = palbChecks s := rfl
  have hread : rasterImage (s.withBusyDefers b d) = rasterImage s := rfl
  rw [palbBody, palbBody, hchecks, hread]
  cases palbChecks s with
  | error x => rfl
  | ok p =>
    cases rasterImage s with
    | error x => rfl
    | ok image => exact hacc p _

/-- A PALB at once that sets PALV or raises IE_COLLABORATOR, by the end of its pseudocode. -/
theorem palbBody_of_exec_palb (he : s.status.err = false) (hv : s.status.palv = false)
    (hx : exec .palb { s with collabDefers := false } = .next t)
    (hans : t.status.palv = true ∨ t.status.ecode = .ieCollaborator) :
    (∃ u, palbBody s = .ok u ∧ t = u.withBusyDefers s.status.busy false) ∨
    (palbBody s = .error (.raise .ieCollaborator) ∧ t = (raiseError .ieCollaborator s).withBusyDefers false false) := by
  have hrun : settle (s.withBusyDefers s.status.busy false) (palbBody (s.withBusyDefers s.status.busy false)) = .next t :=
    (exec_palb_answered (s := s.withBusyDefers s.status.busy false) he rfl).symm.trans hx
  rw [palbBody_withBusyDefers] at hrun
  cases hbody : palbBody s with
  | ok u =>
    rw [hbody] at hrun
    cases hrun
    exact .inl ⟨u, rfl, rfl⟩
  | error x =>
    rw [hbody] at hrun
    cases x with
    | fault f => cases hrun
    | raise c =>
      cases hrun
      rcases hans with hans | rfl
      · exact absurd (hv.symm.trans hans) (by decide)
      · exact .inr ⟨rfl, rfl⟩

/-- Where PALB does not wait, BUSY falls exactly when PQ is empty (44 R182). -/
theorem dropBusy_of_not_waiting (hw : s.waiting = false) :
    dropBusy s = { s with status := { s.status with busy := s.status.busy && decide (s.pq ≠ []) } } := by
  by_cases hq : s.pq = []
  · simp [dropBusy, hw, hq]
  · simp [dropBusy, hq]

theorem dropBusy_of_waiting (hw : s.waiting = true) : dropBusy s = s := by simp [dropBusy, hw]

theorem palbBody_waiting (h : palbBody s = .ok t) : t.waiting = s.waiting := by
  obtain ⟨p, image, -, -, hacc⟩ := palbBody_eq_ok.1 h
  obtain ⟨-, rfl⟩ := acceptAnswer_eq_ok.1 hacc
  rfl

/-- The answer carries out the PALB that waits (70 R239). -/
theorem answerTurn_of_waiting (hw : s.waiting = true) (he : s.status.err = false) :
    answerTurn s = thenDropBusy (settle { s with waiting := false } (palbBody { s with waiting := false })) := by
  rw [answerTurn, if_pos hw, runCommand_ok (s := { s with waiting := false }) _ he]

/-- While BUSY = 1 the sequencer issues the first word of PQ (44 R182). -/
theorem sequencerTurn_of_busy {w : Word} {rest : List Word} (hb : s.status.busy = true) (hw : s.waiting = false)
    (hq : s.pq = w :: rest) : sequencerTurn s = thenDropBusy (issue w { s with pq := rest }) := by
  simp only [sequencerTurn, hb, hw, hq, Bool.not_true, Bool.or_self, Bool.false_eq_true, if_false]

/-- Settles O34: the hold begins where PALB at once would be answered (`palbHold_of_palbBody`); the answer runs the same
pseudocode, which does not see BUSY or the deferral (`palbBody_withBusyDefers`). -/
theorem heldPalbIsPalbLater : Obligations.HeldPalbIsPalbLater := by
  intro s t hw ha hd he hv hx hans held
  have hends := palbBody_of_exec_palb he hv hx hans
  have hhold : exec .palb s = .next held := by
    rw [exec_palb_deferred he hd, palbHold_of_palbBody (hends.imp (fun ⟨u, hu, _⟩ => ⟨u, hu⟩) And.left), settle_ok]
  refine ⟨hhold, fun w hdec => ⟨fun hb => ?_, fun hb => ?_⟩, ?_, ?_⟩
  · have hidle : { s with agenda := [] } = s := by rw [← ha]
    rw [step_of_command (s := { s with agenda := [.host (.writeReg 0x18 4 w)] }) rfl hb, issue_of_decode hdec, hidle, hhold]
  · have hturn : step { s with pq := w :: s.pq } = sequencerTurn { s with pq := w :: s.pq } := by simp only [step, nextMove, ha]
    rw [hturn, sequencerTurn_of_busy (s := { s with pq := w :: s.pq }) hb hw rfl, issue_of_decode hdec, hhold, thenDropBusy,
      dropBusy_of_waiting rfl]
  · simp [step, nextMove, sequencerTurn, held, ha]
  · have hfree : { held with agenda := [], waiting := false } = s.withBusyDefers true true := by
      simp [held, State.withBusyDefers, ha, hw, hd]
    rw [step_of_agenda (s := { held with agenda := [.collabAnswer] }) rfl, takeMove,
      answerTurn_of_waiting (s := { held with agenda := [] }) rfl he, hfree, palbBody_withBusyDefers]
    rcases hends with ⟨u, hu, rfl⟩ | ⟨hraise, rfl⟩
    · have hwait : u.waiting = false := (palbBody_waiting hu).trans hw
      rw [hu]
      exact congrArg Host.Outcome.next (dropBusy_of_not_waiting (s := u.withBusyDefers true true) hwait)
    · rw [hraise]
      exact congrArg Host.Outcome.next
        (dropBusy_of_not_waiting (s := raiseError .ieCollaborator (s.withBusyDefers true true)) rfl)

/-! ### PALR (42 R133, R134) -/

/-- The lowest index of an equal entry among the first P (42 R133). -/
theorem resolve_eq_some {pal : List Color} {p i : Nat} {c : Color} (hi : i < p) (heq : pal[i]? = some c)
    (hlow : ∀ j < i, pal[j]? ≠ some c) : resolve pal p c = some i := by
  obtain ⟨hlen, rfl⟩ := List.getElem?_eq_some_iff.1 heq
  refine List.findIdx?_eq_some_iff_getElem.2 ⟨by rw [List.length_take]; exact lt_min hi hlen, by simp, fun j hj => ?_⟩
  simpa [List.getElem?_eq_getElem (hj.trans hlen)] using hlow j hj

/-- No entry among the first P is equal (42 R134). -/
theorem resolveOrMiss_eq_miss {pal : List Color} {p : Nat} {c : Color} (hmiss : ∀ i < p, pal[i]? ≠ some c) :
    resolveOrMiss pal p c = .error (.raise .iePaletteMiss) := by
  have hnone : resolve pal p c = none := List.findIdx?_eq_none_iff.2 fun d hd => by
    obtain ⟨i, hi, rfl⟩ := List.mem_take_iff_getElem.1 hd
    obtain ⟨hp, hlen⟩ := lt_min_iff.1 hi
    simpa [List.getElem?_eq_getElem hlen] using hmiss i hp
  rw [resolveOrMiss, hnone]

/-- PALR where it is legal. -/
theorem exec_palr_eq {e : Encoder} {k : Nat} (he : s.status.err = false) (hi : s.status.initOk = true)
    (hcur : currentEncoder s = some e) (hk : indexBits e = some k) (hv : s.status.palv = true) :
    exec .palr s = settle s (do
      let i ← resolveOrMiss s.pal (palSize k) (argColor s.arg)
      return { s with res := BitVec.ofNat 32 i }) := by
  refine (runCommand_ok _ he).trans ?_
  simp [palrBody, hi, hv, paletteAt_eq_ok.2 ⟨e, k, hcur, hk, rfl⟩]

/-- Settles O35: the lookup finds the lowest equal entry (`resolve_eq_some`) or misses (`resolveOrMiss_eq_miss`). -/
theorem palrFindsLowestIndex : Obligations.PalrFindsLowestIndex := by
  rintro s e k c he hi hcur hk hv - rfl
  refine ⟨fun i hp heq hlow => ?_, fun hmiss => ?_⟩
  · have hfound : resolveOrMiss s.pal (palSize k) (argColor s.arg) = .ok i :=
      resolveOrMiss_eq_ok.2 (resolve_eq_some hp heq hlow)
    rw [exec_palr_eq he hi hcur hk hv, hfound, bind_ok, pure_eq_ok, settle_ok]
  · have hnone : resolveOrMiss s.pal (palSize k) (argColor s.arg) = .error (.raise .iePaletteMiss) :=
      resolveOrMiss_eq_miss hmiss
    rw [EntersError, exec_palr_eq he hi hcur hk hv, hnone, bind_error, settle_raise]

end Sys2Proof.Machine
end

section
/-! PROOF. The pixel encoders: when they are out of turn, the bytes and fields they write, and the cursor they leave (43 R140 to
R161, 44 R177 to R179): O12, O36 to O44. -/

namespace Sys2Proof.Machine

variable {s t : State}

/-! ### What the end of a pixel encoder leaves alone (43 R140) -/

@[simp] theorem advance_sub (s : State) : (advance s).cur.sub = s.cur.sub := by
  rcases advance_cases s with ⟨-, ht⟩ | ⟨-, -, ht⟩ | ⟨-, -, ht⟩ <;> rw [ht] <;> exact s.cur.nextXY_sub s.l

theorem advance_status (s : State) : ∃ d, (advance s).status = { s.status with subdone := d } := by
  rcases advance_cases s with ⟨-, ht⟩ | ⟨-, -, ht⟩ | ⟨-, -, ht⟩ <;> rw [ht] <;> exact ⟨_, rfl⟩

/-- A true-colour encoder uses ACT up, every other one leaves ACTV as it is; then the cursor advances. -/
theorem afterPixel_eq_advance (e : Encoder) (s : State) :
    afterPixel e s = advance { s with status := { s.status with actv := if isTrueColour e then false else s.status.actv } } := by
  rw [afterPixel]
  cases isTrueColour e <;> rfl

@[simp] theorem afterPixel_sub (e : Encoder) (s : State) : (afterPixel e s).cur.sub = s.cur.sub := by
  rw [afterPixel_eq_advance, advance_sub]

theorem afterPixel_status (e : Encoder) (s : State) : ∃ d, (afterPixel e s).status =
    { s.status with actv := if isTrueColour e then false else s.status.actv, subdone := d } := by
  rw [afterPixel_eq_advance]
  exact advance_status _

/-- A pixel encoder changes the current output buffer, the cursor, ACTV and SUBDONE. -/
theorem sameButPixel_afterPixel (e : Encoder) (s : State) (m : Memory) : SameButPixel s (afterPixel e (setCurObuf s m)) := by
  obtain ⟨d, hstatus⟩ := afterPixel_status e (setCurObuf s m)
  constructor
  case inputs => constructor <;> simp
  case otherBuffers => exact fun i hi => by rw [afterPixel_obuf, setCurObuf_obuf, Obufs.get_set_other _ _ hi]
  case flags => rw [hstatus]; rfl
  all_goals simp

theorem afterPixel_actv (e : Encoder) (s : State) :
    (afterPixel e s).status.actv = if isTrueColour e then false else s.status.actv := by
  obtain ⟨d, hstatus⟩ := afterPixel_status e s
  rw [hstatus]

/-! ### An encoder out of turn (43 R140, R161) -/

/-- A true-colour encoder is ready once QPIX has run, an indexed one once PALB has. -/
theorem encoderReady_of_trueColour {e : Encoder} (h : e ∈ [Encoder.tc332, .tc565, .tc565s, .tc888, .tc8888, .pl565])
    (d : Status) : encoderReady e d = d.actv := by
  have htrue : ∀ e ∈ [Encoder.tc332, .tc565, .tc565s, .tc888, .tc8888, .pl565], isTrueColour e = true := by decide
  rw [encoderReady, if_pos (htrue e h)]

theorem encoderReady_of_indexed {e : Encoder} (h : e ∈ [Encoder.i1, .i2, .i4, .i8]) (d : Status) :
    encoderReady e d = d.palv := by
  have hindexed : ∀ e ∈ [Encoder.i1, .i2, .i4, .i8], (indexBits e).isSome = true := by decide
  simp [encoderReady, hindexed e h]

/-- The checks every encoder makes first fail out of turn. -/
theorem encoderChecks_raises {e : Encoder}
    (h : s.status.subDone s.cur.sub = true ∨ currentEncoder s ≠ some e ∨ encoderReady e s.status = false) :
    encoderChecks e s = .error (.raise .cmdIllegal) := by
  cases hx : encoderChecks e s with
  | error x => rw [encoderChecks_eq_error hx]
  | ok u =>
    obtain ⟨-, hopen, hcur, hready⟩ := encoderChecks_eq_ok.1 hx
    rcases h with h | h | h
    · exact absurd (hopen.symm.trans h) (by decide)
    · exact absurd hcur h
    · exact absurd (hready.symm.trans h) (by decide)

theorem exec_encoder_raises {e : Encoder} (he : s.status.err = false) (h : encoderChecks e s = .error (.raise .cmdIllegal)) :
    EntersError (encoderInstr e) s .cmdIllegal := by
  by_cases hraw : e = .raw
  · subst hraw
    exact runCommand_raises he (by rw [encRawBody, h, bind_error])
  · rw [EntersError, exec_encoder hraw]
    exact runCommand_raises he (by rw [h, bind_error])

/-- Settles O12: every encoder makes the checks of its turn first, and each of the four ways out of turn fails one of them. -/
theorem encoderOutOfTurnRaises : Obligations.EncoderOutOfTurnRaises := fun s e he h => by
  refine exec_encoder_raises he (encoderChecks_raises (h.imp_right (Or.imp_right fun h => ?_)))
  rcases h with ⟨hmem, ha⟩ | ⟨hmem, hv⟩
  · rwa [encoderReady_of_trueColour hmem]
  · rwa [encoderReady_of_indexed hmem]

/-! ### Encoders that append their pixel (43 R141 to R149) -/

/-- A pixel encoder in turn whose own rule succeeds completes. -/
theorem exec_encoder_completes {e : Encoder} (he : e ≠ .raw) (h : MayEncode e s) (hr : encoderReady e s.status = true)
    {u : State} (hw : writePixel e s = .ok u) : exec (encoderInstr e) s = .next (afterPixel e u) := by
  rw [exec_encoder he]
  exact pixelEncoder_completes h.1 (encoderChecks_of_mayEncode h hr) hw

/-- An encoder in turn whose own rule is OBufAppend (20 R65). -/
theorem appendsPixel_of_writePixel {e : Encoder} (he : e ≠ .raw) (h : MayEncode e s) (hr : encoderReady e s.status = true)
    {bytes : List Byte} (hw : writePixel e s = .ok (obufAppend s bytes)) : AppendsPixel e s bytes := by
  have hread : ∀ p, Memory.read ((afterPixel e (obufAppend s bytes)).obuf.get s.cur.sub) p =
      Memory.read (curObuf (obufAppend s bytes)) p := fun p => by rw [afterPixel_obuf]; rfl
  refine ⟨_, exec_encoder_completes he h hr hw, sameButPixel_afterPixel e s _, afterPixel_actv e _, fun p hp => ?_,
    fun j hj => ?_⟩
  · rw [hread, read_obufAppend]
    exact if_neg hp
  · have hin : Memory.len (curObuf s) ≤ Memory.len (curObuf s) + j ∧
        Memory.len (curObuf s) + j < Memory.len (curObuf s) + bytes.length := by omega
    refine (hread _).trans ((read_obufAppend s bytes _).trans ?_)
    exact (if_pos hin).trans (congrArg (bytes[·]?) (Nat.add_sub_cancel_left ..))

theorem trailingAlpha_of_alphaBytes {alpha : List Byte} (h : AlphaBytes s alpha) : trailingAlpha s = .ok alpha := by
  rcases h with ⟨heff, rfl⟩ | ⟨heff, a, rfl, ha⟩
  · exact trailingAlpha_eq_ok.2 (.inr ⟨heff, rfl⟩)
  · exact trailingAlpha_eq_ok.2 (.inl ⟨heff, a, sampleAlpha_eq_ok.2 ha, rfl⟩)

theorem appendPixel_of_alphaBytes {alpha : List Byte} (h : AlphaBytes s alpha) (colour : List Byte) :
    appendPixel colour s = .ok (obufAppend s (colour ++ alpha)) := by
  rw [appendPixel, trailingAlpha_of_alphaBytes h, bind_ok, pure_eq_ok]

/-- Settles O36: the colour byte, then the trailing alpha byte. -/
theorem tc332AppendsPixel : Obligations.Tc332AppendsPixel := fun s _ h ha halpha =>
  appendsPixel_of_writePixel (by decide) h ha (appendPixel_of_alphaBytes halpha [c8 s.act])

/-- The three fields of the 5-6-5 word do not overlap, so their disjunction is their sum (43 R142). -/
theorem c16_toNat (c : Rgb Byte) : (c16 c).toNat = c.r.toNat / 8 * 2048 + c.g.toNat / 4 * 32 + c.b.toNat / 8 := by
  have hb : c.b.toNat / 8 < 2 ^ 5 := by omega
  have hlow : (c.g.toNat / 4) <<< 5 + c.b.toNat / 8 < 2 ^ 11 := by rw [Nat.shiftLeft_eq]; omega
  calc (c16 c).toNat
      = (c.r.toNat / 8) <<< 11 ||| ((c.g.toNat / 4) <<< 5 ||| c.b.toNat / 8) := by
        simp only [c16, BitVec.toNat_or, BitVec.toNat_shiftLeft, BitVec.toNat_ushiftRight, BitVec.toNat_setWidth,
          Nat.shiftRight_eq_div_pow, Nat.shiftLeft_eq]
        rw [Nat.lor_assoc]
        congr 2 <;> omega
    _ = (c.r.toNat / 8) <<< 11 + ((c.g.toNat / 4) <<< 5 + c.b.toNat / 8) := by
        rw [← Nat.shiftLeft_add_eq_or_of_lt hb, Nat.shiftLeft_add_eq_or_of_lt hlow]
    _ = c.r.toNat / 8 * 2048 + c.g.toNat / 4 * 32 + c.b.toNat / 8 := by rw [Nat.shiftLeft_eq, Nat.shiftLeft_eq]; omega

theorem extract_low_byte (w : BitVec 16) : w.extractLsb' 0 8 = BitVec.ofNat 8 w.toNat := rfl

theorem extract_high_byte (w : BitVec 16) : w.extractLsb' 8 8 = BitVec.ofNat 8 (w.toNat / 256) := by
  rw [BitVec.extractLsb', Nat.shiftRight_eq_div_pow]

/-- Settles O37: the colour word as a number, in the byte order of each encoder. -/
theorem encoders565AppendPixel : Obligations.Encoders565AppendPixel := by
  rintro s alpha w rfl ha
  rw [← c16_toNat, ← extract_high_byte, ← extract_low_byte]
  exact ⟨fun h halpha => appendsPixel_of_writePixel (by decide) h ha (appendPixel_of_alphaBytes halpha _),
    fun h halpha => appendsPixel_of_writePixel (by decide) h ha (appendPixel_of_alphaBytes halpha _),
    fun h => appendsPixel_of_writePixel (by decide) h ha rfl⟩

/-- The whole pixel reversed: at most one alpha byte comes first. -/
theorem tc8888Bytes_eq {alpha : List Byte} (h : AlphaBytes s alpha) (swap : Bool) (c : Rgb Byte) :
    tc8888Bytes swap c alpha = if swap then alpha ++ [c.r, c.g, c.b] else [c.b, c.g, c.r] ++ alpha := by
  rcases h with ⟨-, rfl⟩ | ⟨-, a, rfl, -⟩ <;> cases swap <;> rfl

/-- Settles O38: the colour bytes, then the trailing alpha byte; the swap reverses them (`tc8888Bytes_eq`). -/
theorem encoders888AppendPixel : Obligations.Encoders888AppendPixel := by
  refine fun s alpha ha halpha => ⟨fun h => appendsPixel_of_writePixel (by decide) h ha (appendPixel_of_alphaBytes halpha _),
    fun h => appendsPixel_of_writePixel (by decide) h ha ?_⟩
  rw [writePixel, trailingAlpha_of_alphaBytes halpha, bind_ok, pure_eq_ok, tc8888Bytes_eq halpha]

/-- Settles O39: the own rule appends the sample it reads. -/
theorem pla8AppendsAlpha : Obligations.Pla8AppendsAlpha := fun s a h ha => by
  have hsample : sampleAlpha s = .ok a := sampleAlpha_eq_ok.2 ha
  exact appendsPixel_of_writePixel (by decide) h rfl (by rw [writePixel, hsample, bind_ok, pure_eq_ok])

/-! ### Encoders that place a field or a byte (43 R150 to R160) -/

/-- An encoder in turn whose own rule is OBufSet (20 R65). OBufOr sets the byte that was there ORed with the field. -/
theorem storesByte_of_writePixel {e : Encoder} (he : e ≠ .raw) (hplain : isTrueColour e = false) (h : MayEncode e s)
    (hr : encoderReady e s.status = true) {p : Nat} {b : Byte} (hw : writePixel e s = .ok (obufSet s p b)) :
    StoresByte e s p b := by
  have hread : ∀ q, Memory.read ((afterPixel e (obufSet s p b)).obuf.get s.cur.sub) q =
      if q = p then some b else Memory.read (curObuf s) q := fun q => by
    rw [afterPixel_obuf]; exact read_obufSet s p q b
  refine ⟨_, exec_encoder_completes he h hr hw, sameButPixel_afterPixel e s _, ?_, fun q hq => ?_, ?_⟩
  · rw [afterPixel_actv, hplain]; rfl
  · rw [hread]
    exact if_neg (by omega)
  · rw [hread, if_pos rfl]

theorem fieldByte_ofNat (k x v : Nat) : fieldByte k x (BitVec.ofNat 8 v) = BitVec.ofNat 8 (v * 2 ^ fieldShift k x) := by
  apply BitVec.eq_of_toNat_eq
  rw [fieldByte, BitVec.toNat_shiftLeft, BitVec.toNat_ofNat, BitVec.toNat_ofNat, Nat.shiftLeft_eq, Nat.mod_mul_mod]

/-- An encoder whose own rule is PackField of a number (43 R150). -/
theorem storesByte_of_packField {e : Encoder} (he : e ≠ .raw) (hplain : isTrueColour e = false) (h : MayEncode e s)
    (hr : encoderReady e s.status = true) {base k v p shift : Nat}
    (hw : writePixel e s = .ok (packField s base k (BitVec.ofNat 8 v)))
    (hp : fieldAddr base s.l.w.toNat k s.cur.x.toNat s.cur.y.toNat = p) (hshift : fieldShift k s.cur.x.toNat = shift) :
    StoresByte e s p (byteThere s p ||| BitVec.ofNat 8 (v * 2 ^ shift)) := by
  subst hp hshift
  rw [← fieldByte_ofNat]
  exact storesByte_of_writePixel he hplain h hr hw

/-! The byte and the shift of a field, for each width (20 R70, R71). -/

theorem fieldAddr_one (base w x y : Nat) : fieldAddr base w 1 x y = base + (w + 7) / 8 * y + x / 8 := rfl
theorem fieldAddr_two (base w x y : Nat) : fieldAddr base w 2 x y = base + (w + 3) / 4 * y + x / 4 := rfl
theorem fieldAddr_four (base w x y : Nat) : fieldAddr base w 4 x y = base + (w + 1) / 2 * y + x / 2 := rfl
theorem fieldShift_one (x : Nat) : fieldShift 1 x = 7 - x % 8 := by simp [fieldShift]
theorem fieldShift_two (x : Nat) : fieldShift 2 x = 6 - 2 * (x % 4) := rfl
theorem fieldShift_four (x : Nat) : fieldShift 4 x = 4 - 4 * (x % 2) := rfl

/-! The alpha field as a number, for each width (43 R151). -/

theorem alphaVal_one (a : Byte) : alphaVal 1 a = BitVec.ofNat 8 (if a.toNat > 0x80 then 1 else 0) := by
  rw [alphaVal]
  split <;> rfl

theorem ushiftRight_eq_ofNat_div (a : Byte) (n : Nat) : a >>> n = BitVec.ofNat 8 (a.toNat / 2 ^ n) := by
  rw [← Nat.shiftRight_eq_div_pow, ← BitVec.toNat_ushiftRight, BitVec.ofNat_toNat, BitVec.setWidth_eq]

theorem alphaVal_two (a : Byte) : alphaVal 2 a = BitVec.ofNat 8 (a.toNat / 64) := ushiftRight_eq_ofNat_div a 6

theorem alphaVal_four (a : Byte) : alphaVal 4 a = BitVec.ofNat 8 (a.toNat / 16) := ushiftRight_eq_ofNat_div a 4

/-- Settles O40: each field as a number, at its byte and shift. -/
theorem alphaEncodersPlaceField : Obligations.AlphaEncodersPlaceField := by
  rintro s a x y w rfl rfl rfl ha
  have hsample : sampleAlpha s = .ok a := sampleAlpha_eq_ok.2 ha
  have hfield : ∀ k, alphaField k s = .ok (packField s 0 k (alphaVal k a)) := fun k => by
    rw [alphaField, hsample, bind_ok, pure_eq_ok]
  refine ⟨fun h => ?_, fun h => ?_, fun h => ?_, fun h => ?_⟩
  · exact storesByte_of_packField (by decide) rfl h rfl ((hfield 1).trans (by rw [alphaVal_one]))
      (by rw [fieldAddr_one, Nat.zero_add]) (fieldShift_one _)
  · exact storesByte_of_packField (by decide) rfl h rfl ((hfield 2).trans (by rw [alphaVal_two]))
      (by rw [fieldAddr_two, Nat.zero_add]) (fieldShift_two _)
  · exact storesByte_of_packField (by decide) rfl h rfl ((hfield 4).trans (by rw [alphaVal_four]))
      (by rw [fieldAddr_four, Nat.zero_add]) (fieldShift_four _)
  · refine storesByte_of_writePixel (by decide) rfl h rfl ?_
    rw [writePixel, hsample, bind_ok, pure_eq_ok, packByte, byteAddr, Nat.zero_add]; rfl

/-- Settles O41: the colour is found (`resolve_eq_some`) and its index placed behind the palette region. -/
theorem indexedEncodersPlaceIndex : Obligations.IndexedEncodersPlaceIndex := by
  rintro s c i x y w a rfl rfl rfl rfl hv hr hg hb ha hpal hlow
  have hindex : ∀ k, i < palSize k → indexVal k s = .ok i := fun k hk => by
    have hcolour : fetchColor .remap s.remap (pixelAddr s.l s.cur.x.toNat s.cur.y.toNat) = .ok c :=
      fetchColor_eq_ok.2 ⟨hr, hg, hb, ha⟩
    rw [indexVal, hcolour, bind_ok]
    exact resolveOrMiss_eq_ok.2 (resolve_eq_some hk hpal hlow)
  have hfield : ∀ k, i < palSize k → indexField k s = .ok (packField s (4 * palSize k) k (BitVec.ofNat 8 i)) := fun k hk => by
    rw [indexField, hindex k hk, bind_ok, pure_eq_ok]
  refine ⟨fun h hi => ?_, fun h hi => ?_, fun h hi => ?_, fun h hi => ?_⟩
  · exact storesByte_of_packField (by decide) rfl h hv (hfield 1 hi) (fieldAddr_one ..) (fieldShift_one _)
  · exact storesByte_of_packField (by decide) rfl h hv (hfield 2 hi) (fieldAddr_two ..) (fieldShift_two _)
  · exact storesByte_of_packField (by decide) rfl h hv (hfield 4 hi) (fieldAddr_four ..) (fieldShift_four _)
  · refine storesByte_of_writePixel (by decide) rfl h hv ?_
    rw [writePixel, hindex 8 hi, bind_ok, pure_eq_ok, packByte, byteAddr]

/-- The own rule of an indexed encoder starts with the lookup of its colour (43 R156). -/
theorem writePixel_eq_error_of_indexVal {e : Encoder} {k : Nat} (hk : indexBits e = some k) {x : Stop}
    (h : indexVal k s = .error x) : writePixel e s = .error x := by
  cases e <;> cases hk <;> simp only [writePixel, indexField, h, bind_error]

/-- Settles O42: the lookup misses (`resolveOrMiss_eq_miss`). -/
theorem indexedEncoderMissRaises : Obligations.IndexedEncoderMissRaises := by
  rintro s e k a c hk h hv rfl hr hg hb ha hmiss
  have hcolour : fetchColor .remap s.remap (pixelAddr s.l s.cur.x.toNat s.cur.y.toNat) = .ok c :=
    fetchColor_eq_ok.2 ⟨hr, hg, hb, ha⟩
  have hindex : indexVal k s = .error (.raise .iePaletteMiss) := by
    rw [indexVal, hcolour, bind_ok]
    exact resolveOrMiss_eq_miss hmiss
  have hraw : e ≠ .raw := fun he => by rw [he] at hk; cases hk
  have hready : encoderReady e s.status = true := (encoderReady_of_indexed (mem_indexed_of_indexBits hk) _).trans hv
  rw [EntersError, exec_encoder hraw]
  exact runCommand_raises h.1 (by
    rw [encoderChecks_of_mayEncode h hready, bind_ok, writePixel_eq_error_of_indexVal hk hindex, bind_error])

/-! ### The cursor after a pixel (44 R177 to R179) -/

theorem Cursor.nextXY_of_lt {c : Cursor} {l : Latched} (h : c.x.toNat + 1 < l.w.toNat) :
    c.nextXY l = { c with x := c.x + 1 } := if_neg fun he => by bv_omega

theorem Cursor.nextXY_of_eq {c : Cursor} {l : Latched} (h : c.x.toNat + 1 = l.w.toNat) :
    c.nextXY l = { c with x := 0, y := c.y + 1 } := if_pos (by bv_omega)

/-! What the cursor and SUBDONE are after the advance, for each of its branches. -/

theorem advance_of_inside (h : (s.cur.nextXY s.l).y ≠ s.l.h) :
    (advance s).cur = s.cur.nextXY s.l ∧ (advance s).status.subdone = s.status.subdone := by
  simp [advance, h]

theorem advance_of_first_pass (h : (s.cur.nextXY s.l).y = s.l.h) (hp : s.cur.pass.toNat + 1 < nPass s.l.fmt) :
    (advance s).cur = { s.cur.nextXY s.l with pass := true, y := 0 } ∧ (advance s).status.subdone = s.status.subdone := by
  simp [advance, h, hp]

theorem advance_of_last_pass (h : (s.cur.nextXY s.l).y = s.l.h) (hp : ¬ s.cur.pass.toNat + 1 < nPass s.l.fmt) :
    (advance s).cur = s.cur.nextXY s.l ∧ (advance s).status.subdone = s.status.subdone ||| (1#4 <<< s.cur.sub.toNat) := by
  simp [advance, h, hp]

/-- Where an encoder ends without an error it has advanced a state with the cursor, L, SUBDONE and dither state it ran in. -/
theorem exec_encoder_eq_advance {e : Encoder} (he : e ≠ .raw) (herr : s.status.err = false)
    (hx : exec (encoderInstr e) s = .next t) (hok : t.status.err = false) :
    ∃ u, t = advance u ∧ u.cur = s.cur ∧ u.l = s.l ∧ u.status.subdone = s.status.subdone ∧ u.nerr = s.nerr ∧
      u.earr = s.earr := by
  rcases exec_encoder_ends he hx with ⟨h, -⟩ | ⟨-, ⟨-, m, -, ht⟩ | ⟨c, -, rfl⟩⟩
  · exact absurd (herr.symm.trans h) (by decide)
  · exact ⟨_, ht.trans (afterPixel_eq_advance e _), rfl, rfl, rfl, rfl, rfl⟩
  · cases hok

/-- Settles O43: one case of the advance for each place of the pixel in its pass. -/
theorem encodersAdvanceCursor : Obligations.EncodersAdvanceCursor := by
  intro s t e he herr hx hok hcol hrow
  obtain ⟨u, rfl, hcur, hl, hd, hn, hearr⟩ := exec_encoder_eq_advance he herr hx hok
  rw [← hcur, ← hl] at hcol hrow
  rw [← hcur, ← hl, ← hd, ← hn, ← hearr]
  refine ⟨⟨advance_nerr u, advance_earr u⟩, fun hx => ?_, fun hx hy => ?_, fun hx hy hf hp => ?_, fun hx hy hlast => ?_⟩
  · have hnext := Cursor.nextXY_of_lt hx
    rw [← hnext]
    exact advance_of_inside (by rw [hnext]; bv_omega)
  · have hnext := Cursor.nextXY_of_eq hx
    rw [← hnext]
    exact advance_of_inside (by rw [hnext]; bv_omega)
  · have hnext := Cursor.nextXY_of_eq hx
    have hend : (u.cur.nextXY u.l).y = u.l.h := by rw [hnext]; bv_omega
    have hpass : u.cur.pass.toNat + 1 < nPass u.l.fmt := by rw [hp, hf]; decide
    have hafter := advance_of_first_pass hend hpass
    rwa [hnext] at hafter
  · have hnext := Cursor.nextXY_of_eq hx
    have hend : (u.cur.nextXY u.l).y = u.l.h := by rw [hnext]; bv_omega
    have hpass : ¬ u.cur.pass.toNat + 1 < nPass u.l.fmt := by
      rcases hlast with hf | hp
      · rw [nPass, if_neg hf]; omega
      · rw [hp]; cases u.l.fmt <;> decide
    have hafter := advance_of_last_pass hend hpass
    rw [← hend, hnext]
    rwa [hnext] at hafter

/-! ### ENC.RAW (43 R161) -/

/-- The bytes of RAWIN in the order of their addresses. -/
theorem fetchBytes_getElem? {sp : Space} {m : Memory} {a n j : Nat} {bs : List Byte} (h : fetchBytes sp m a n = .ok bs)
    (hj : j < n) : bs[j]? = Memory.read m (a + j) := by
  induction n generalizing a j bs with
  | zero => omega
  | succ n ih =>
    simp only [fetchBytes, bind_eq_ok, fetchByte_eq_ok, pure_eq_ok, Except.ok.injEq] at h
    obtain ⟨b, hb, rest, hrest, rfl⟩ := h
    cases j with
    | zero => exact hb.symm
    | succ j => rw [List.getElem?_cons_succ, ih hrest (Nat.lt_of_succ_lt_succ hj), Nat.add_right_comm, Nat.add_assoc]

/-- Settles O44: the bytes read are those of RAWIN (`fetchBytes_getElem?`), written from address 0 on. -/
theorem rawCopiesSource : Obligations.RawCopiesSource := by
  intro s h hsrc
  obtain ⟨bytes, hbytes⟩ := (Reads.fetchBytes (sp := .rawin) (m := s.rawin) (a := 0) (n := s.l.rawlen.toNat)).ends
    fun j hj => by rw [Nat.zero_add]; exact hsrc j hj
  have hbody : encRawBody s = .ok (complete (setCurObuf s (Memory.writeList (curObuf s) 0 bytes)) s.cur.sub) := by
    rw [encRawBody, encoderChecks_of_mayEncode h rfl, bind_ok, hbytes, bind_ok, pure_eq_ok]
  refine ⟨_, (runCommand_ok encRawBody h.1).trans (by rw [hbody, settle_ok]), rfl, fun i hi => Obufs.get_set_other _ _ hi,
    fun j => ?_⟩
  rw [complete_obuf, setCurObuf_obuf, Obufs.get_set_same, Memory.read_writeList, fetchBytes_length hbytes]
  simp only [Nat.zero_le, true_and, Nat.zero_add, Nat.sub_zero]
  split <;> rename_i hj
  · rw [fetchBytes_getElem? hbytes hj, Nat.zero_add]
  · rfl

end Sys2Proof.Machine
end

section
/-! PROOF. The output buffers hold exactly what the encoders have written (43 R162, 20 R73): O51. -/

namespace Sys2Proof.Machine

variable {s t : State}

/-! ### Memories that hold exactly the bytes 0 to n - 1 -/

section
variable {m : Memory} {n : Nat}

theorem Memory.mem_keys_write (m : Memory) (a p : Nat) (b : Byte) :
    p ∈ (Memory.write m a b).map Prod.fst ↔ p = a ∨ p ∈ m.map Prod.fst := by
  induction m with
  | nil => simp [Memory.write]
  | cons c m ih =>
    obtain ⟨k, v⟩ := c
    simp only [Memory.write]
    split
    · simp
    · split
      · subst_vars; simp
      · simp only [List.map_cons, List.mem_cons, ih]
        exact or_left_comm

/-- The addresses rise strictly, so they are 0 to n - 1 as soon as they are the same set. -/
theorem Memory.exact_iff : m.Exact n ↔ m.wf ∧ ∀ p, p ∈ m.map Prod.fst ↔ p < n := by
  constructor
  · intro h
    refine ⟨List.pairwise_map.1 ?_, fun p => by rw [h, List.mem_range]⟩
    exact h ▸ List.pairwise_lt_range
  · rintro ⟨hwf, hkeys⟩
    exact (List.pairwise_map.2 hwf).eq_of_mem_iff List.pairwise_lt_range fun p => by rw [hkeys, List.mem_range]

theorem Memory.exact_zero : m.Exact 0 ↔ m = [] := by simp [Memory.Exact]

theorem Memory.len_le_iff {k : Nat} : Memory.len m ≤ k ↔ ∀ p ∈ m.map Prod.fst, p < k := by
  induction m with
  | nil => simp
  | cons c m ih => simp only [Memory.len, max_le_iff, ih, List.map_cons, List.forall_mem_cons, Nat.succ_le_iff]

theorem Memory.Exact.len (h : m.Exact n) : Memory.len m = n :=
  eq_of_forall_ge_iff fun k => by
    simp only [Memory.len_le_iff, (Memory.exact_iff.1 h).2]
    exact ⟨fun hk => Nat.le_of_not_lt fun hlt => Nat.lt_irrefl _ (hk k hlt), fun hk p hp => hp.trans_le hk⟩

/-- A byte written inside the memory or at its end. -/
theorem Memory.Exact.write (h : m.Exact n) {a : Nat} (ha : a ≤ n) (b : Byte) : (Memory.write m a b).Exact (max n (a + 1)) := by
  obtain ⟨hwf, hkeys⟩ := Memory.exact_iff.1 h
  refine Memory.exact_iff.2 ⟨Memory.wf_write hwf a b, fun p => ?_⟩
  rw [Memory.mem_keys_write, hkeys]
  omega

/-- Bytes appended. -/
theorem Memory.Exact.writeList (h : m.Exact n) (bs : List Byte) : (Memory.writeList m n bs).Exact (n + bs.length) := by
  induction bs generalizing m n with
  | nil => exact h
  | cons b bs ih =>
    have hnext := h.write le_rfl b
    rw [max_eq_right n.le_succ] at hnext
    have hall := ih hnext
    rwa [Nat.succ_add_eq_add_succ] at hall

end

/-! ### How many bytes stand before a pixel (20 R73) -/

theorem ceilDiv_zero {b : Nat} (hb : 0 < b) : ceilDiv 0 b = 0 := Nat.div_eq_of_lt (by omega)

/-- The packed field of column x is in the last byte begun before it, or begins the next one (20 R70). -/
theorem ceilDiv_succ {b : Nat} (hb : 0 < b) (x : Nat) :
    x / b ≤ ceilDiv x b ∧ ceilDiv (x + 1) b = max (ceilDiv x b) (x / b + 1) := by
  have hnext : ceilDiv (x + 1) b = x / b + 1 := by
    rw [ceilDiv, show x + 1 + b - 1 = x + b by omega, Nat.add_div_right _ hb]
  have hle : x / b ≤ ceilDiv x b := Nat.div_le_div_right (by omega)
  have hstep : ceilDiv x b ≤ ceilDiv (x + 1) b := Nat.div_le_div_right (by omega)
  exact ⟨hle, by omega⟩

/-- The bytes of the palette region (42 R130). -/
def regionLength (e : Encoder) : Nat :=
  match indexBits e with
  | some k => 4 * palSize k
  | none => 0

/-- Before the first pixel of a row with no pixels before it there is only the palette region, and the colour plane in the alpha
pass. -/
theorem bytesBefore_first {l : Latched} {e : Encoder} {y : Nat} (hy : l.w.toNat * y = 0)
    (hplane : e = .pla8 → l.w.toNat * l.h.toNat = 0) : bytesBefore l e 0 y = regionLength e := by
  have hrow : ∀ k, k = 1 ∨ k = 2 ∨ k = 4 → stride l.w.toNat k * y = 0 := fun k hk => by
    rcases Nat.mul_eq_zero.1 hy with h | h
    · rw [h]; rcases hk with rfl | rfl | rfl <;> exact Nat.zero_mul _
    · rw [h, Nat.mul_zero]
  cases e
  case pla8 => simpa [bytesBefore, regionLength, indexBits, hy] using hplane rfl
  all_goals simp [bytesBefore, regionLength, indexBits, palSize, hy, hrow, ceilDiv_zero]

/-- The end of a row is the start of the next one. -/
theorem bytesBefore_row_end (l : Latched) (e : Encoder) (y : Nat) :
    bytesBefore l e l.w.toNat y = bytesBefore l e 0 (y + 1) := by
  cases e <;> simp only [bytesBefore, stride, ceilDiv_zero (show 0 < 8 by decide), ceilDiv_zero (show 0 < 4 by decide),
    ceilDiv_zero (show 0 < 2 by decide)] <;> ring

/-- The cursor's advance passes the pixel it stands on and no other. -/
theorem bytesBefore_nextXY {c : Cursor} {l : Latched} (e : Encoder) (hx : c.x.toNat < l.w.toNat) (hy : c.y.toNat < l.h.toNat) :
    bytesBefore l e (c.nextXY l).x.toNat (c.nextXY l).y.toNat = bytesBefore l e (c.x.toNat + 1) c.y.toNat := by
  unfold Cursor.nextXY
  split <;> rename_i hw <;> dsimp only
  · have hlast : c.x.toNat + 1 = l.w.toNat := by bv_omega
    have hrow : (c.y + 1).toNat = c.y.toNat + 1 := by bv_omega
    rw [hlast, hrow, bytesBefore_row_end]; rfl
  · have hnext : (c.x + 1).toNat = c.x.toNat + 1 := by bv_omega
    rw [hnext]

/-- The alpha plane starts behind the colour plane (43 R149). -/
theorem bytesBefore_planes (l : Latched) : bytesBefore l .pla8 0 0 = bytesBefore l .pl565 0 l.h.toNat := by
  simp only [bytesBefore]; ring

/-! ### An encoder's own rule writes the bytes of its pixel -/

theorem obufAppend_exact {n : Nat} (h : (curObuf s).Exact n) (bs : List Byte) :
    (curObuf (obufAppend s bs)).Exact (n + bs.length) := by
  rw [obufAppend, curObuf_setCurObuf, h.len]
  exact h.writeList bs

/-- PackField writes the last byte begun before the column, or begins the next one (43 R150). -/
theorem packField_exact {base k : Nat} (hk : 0 < 8 / k)
    (h : (curObuf s).Exact (base + (stride s.l.w.toNat k * s.cur.y.toNat + ceilDiv s.cur.x.toNat (8 / k)))) (v : Byte) :
    (curObuf (packField s base k v)).Exact
      (base + (stride s.l.w.toNat k * s.cur.y.toNat + ceilDiv (s.cur.x.toNat + 1) (8 / k))) := by
  obtain ⟨hin, hnext⟩ := ceilDiv_succ hk s.cur.x.toNat
  rw [packField, obufOr, curObuf_setCurObuf, hnext]
  have hlast : base + (stride s.l.w.toNat k * s.cur.y.toNat + max (ceilDiv s.cur.x.toNat (8 / k)) (s.cur.x.toNat / (8 / k) + 1)) =
      max (base + (stride s.l.w.toNat k * s.cur.y.toNat + ceilDiv s.cur.x.toNat (8 / k)))
        (fieldAddr base s.l.w.toNat k s.cur.x.toNat s.cur.y.toNat + 1) := by rw [fieldAddr]; omega
  rw [hlast]
  exact h.write (by rw [fieldAddr]; omega) _

theorem packByte_exact {base : Nat} (h : (curObuf s).Exact (base + (s.l.w.toNat * s.cur.y.toNat + s.cur.x.toNat))) (v : Byte) :
    (curObuf (packByte s base v)).Exact (base + (s.l.w.toNat * s.cur.y.toNat + (s.cur.x.toNat + 1))) := by
  rw [← Nat.add_assoc] at h
  have hnext := h.write le_rfl v
  rw [max_eq_right (Nat.le_succ _)] at hnext
  rw [packByte, obufSet, curObuf_setCurObuf, ← Nat.add_assoc, ← Nat.add_assoc]
  exact hnext

theorem length_trailingAlpha {bs : List Byte} (h : trailingAlpha s = .ok bs) : bs.length = (effAlpha s.l).toNat := by
  rcases trailingAlpha_eq_ok.1 h with ⟨heff, a, -, rfl⟩ | ⟨heff, rfl⟩ <;> rw [heff] <;> rfl

theorem length_swappable565 (b : Bool) (w : BitVec 16) : (swappable565 b w).length = 2 := by cases b <;> rfl

theorem length_tc8888Bytes (b : Bool) (c : Rgb Byte) (alpha : List Byte) :
    (tc8888Bytes b c alpha).length = 3 + alpha.length := by
  cases b <;> simp [tc8888Bytes] <;> omega

theorem appendPixel_exact {n : Nat} {colour : List Byte} (h : (curObuf s).Exact n) (hw : appendPixel colour s = .ok t) :
    (curObuf t).Exact (n + (colour.length + (effAlpha s.l).toNat)) := by
  obtain ⟨a, ha, rfl⟩ := appendPixel_eq_ok hw
  have := obufAppend_exact h (colour ++ a)
  rwa [List.length_append, length_trailingAlpha ha] at this

/-- The own rule of a pixel encoder leaves exactly the bytes up to the next column. -/
theorem writePixel_exact {e : Encoder} (h : (curObuf s).Exact (bytesBefore s.l e s.cur.x.toNat s.cur.y.toNat))
    (hw : writePixel e s = .ok t) : (curObuf t).Exact (bytesBefore s.l e (s.cur.x.toNat + 1) s.cur.y.toNat) := by
  cases e <;> simp only [writePixel] at hw
  case tc332 | tc565s | tc888 => exact appendPixel_exact h hw
  case tc565 =>
    have := appendPixel_exact h hw
    rwa [length_swappable565] at this
  case tc8888 =>
    simp only [bind_eq_ok, pure_eq_ok, Except.ok.injEq] at hw
    obtain ⟨a, ha, rfl⟩ := hw
    have := obufAppend_exact h (tc8888Bytes (effSwap s.l) s.act a)
    rwa [length_tc8888Bytes, length_trailingAlpha ha] at this
  case pl565 =>
    cases hw
    have := obufAppend_exact h (swappable565 (effSwap s.l) (c16 s.act))
    rwa [length_swappable565] at this
  case pla8 =>
    simp only [bind_eq_ok, pure_eq_ok, Except.ok.injEq] at hw
    obtain ⟨a, -, rfl⟩ := hw
    exact obufAppend_exact h [a]
  case a1 | a2 | a4 =>
    obtain ⟨a, -, rfl⟩ := alphaField_eq_ok hw
    rw [bytesBefore, ← Nat.zero_add (_ + _)] at h ⊢
    exact packField_exact (by decide) h _
  case i1 | i2 | i4 =>
    obtain ⟨i, -, rfl⟩ := indexField_eq_ok hw
    exact packField_exact (by decide) h _
  case a8 =>
    simp only [bind_eq_ok, pure_eq_ok, Except.ok.injEq] at hw
    obtain ⟨a, -, rfl⟩ := hw
    rw [bytesBefore, ← Nat.zero_add (_ + _)] at h ⊢
    exact packByte_exact h _
  case i8 =>
    simp only [bind_eq_ok, pure_eq_ok, Except.ok.injEq] at hw
    obtain ⟨i, -, rfl⟩ := hw
    exact packByte_exact h _
  case raw => cases hw; exact h

/-! ### How many bytes the current output buffer holds -/

/-- A pixel encoder whose conversion has the palette it needs has written the pixels before the cursor. -/
theorem bytesWritten_of_encoder {e : Encoder} (hcur : currentEncoder s = some e) (he : e ≠ .raw)
    (hv : (indexBits e).isSome = true → s.status.palv = true) :
    bytesWritten s = bytesBefore s.l e s.cur.x.toNat s.cur.y.toNat := by
  have hbuilt : ((indexBits e).isSome && !s.status.palv) = false := by
    cases hk : (indexBits e).isSome with
    | false => rfl
    | true => rw [hv hk]; rfl
  rw [bytesWritten, hcur]
  cases e
  case raw => exact absurd rfl he
  all_goals exact if_neg (Bool.eq_false_iff.1 hbuilt)

/-- An indexed conversion writes nothing before PALB (70 R237). -/
theorem bytesWritten_of_unbuilt {e : Encoder} (hcur : currentEncoder s = some e) (hk : (indexBits e).isSome = true)
    (hv : s.status.palv = false) : bytesWritten s = 0 := by
  rw [bytesWritten, hcur]
  cases e
  case i1 | i2 | i4 | i8 => exact if_pos (by rw [hv]; rfl)
  all_goals cases hk

theorem bytesWritten_of_raw (hcur : currentEncoder s = some .raw) :
    bytesWritten s = if s.status.subDone s.cur.sub then s.l.rawlen.toNat else 0 := by rw [bytesWritten, hcur]

/-- The alpha plane is the second pass (30 R92). -/
theorem pass_of_encSel_pla8 {l : Latched} {i : BitVec 2} {p : Bool} (h : encSel l i p = some .pla8) : p = true := by
  unfold encSel at h
  split at h
  case h_16 =>
    split at h
    · assumption
    · cases h
  case h_17 | h_18 | h_19 => split at h <;> split at h <;> cases h
  all_goals cases h

/-- Nothing is written where a sub-conversion starts, at its first pixel or, without pixels, at its end. -/
theorem bytesWritten_start (hv : s.status.palv = false) (hx : s.cur.x = 0) (hy : s.l.w.toNat * s.cur.y.toNat = 0)
    (hpass : s.cur.pass = true → s.l.w.toNat * s.l.h.toNat = 0)
    (hraw : isRaw s.l.fmt = true → s.status.subDone s.cur.sub = false) : bytesWritten s = 0 := by
  cases hcur : currentEncoder s with
  | none => rw [bytesWritten, hcur]
  | some e =>
    by_cases he : e = .raw
    · subst he
      rw [bytesWritten_of_raw hcur, hraw (isRaw_of_currentEncoder hcur)]; rfl
    · cases hk : indexBits e with
      | some k => exact bytesWritten_of_unbuilt hcur (by rw [hk]; rfl) hv
      | none =>
        have hplane : e = .pla8 → s.l.w.toNat * s.l.h.toNat = 0 := fun h => hpass (pass_of_encSel_pla8 (h ▸ hcur))
        rw [bytesWritten_of_encoder hcur he (by simp [hk]), hx]
        exact (bytesBefore_first hy hplane).trans (by rw [regionLength, hk])

/-! ### The buffers through a conversion -/

/-- `BuffersExact` speaks of L, the cursor, SUBDONE, PALV and the output buffers alone. -/
theorem State.BuffersExact.transfer (h : s.BuffersExact) (hl : t.l = s.l) (hc : t.cur = s.cur)
    (hd : t.status.subdone = s.status.subdone) (hp : t.status.palv = s.status.palv) (ho : t.obuf = s.obuf) :
    t.BuffersExact := by
  have hcur : currentEncoder t = currentEncoder s := by rw [currentEncoder, currentEncoder, hl, hc]
  have hw : bytesWritten t = bytesWritten s := by
    rw [bytesWritten, bytesWritten, hcur, hl, hc, hp, Status.subDone, Status.subDone, hd]
  constructor
  case before => rw [hc, hl, ho]; exact h.before
  case current => rw [hc, ho, hw]; exact h.current
  case after => rw [hc, ho]; exact h.after
  case unbuilt => rw [hc, hl, hp]; exact h.unbuilt

theorem State.BufferInv.transfer (h : s.BufferInv) (hi : t.status.initOk = s.status.initOk) (hl : t.l = s.l)
    (hc : t.cur = s.cur) (hd : t.status.subdone = s.status.subdone) (hp : t.status.palv = s.status.palv)
    (ho : t.obuf = s.obuf) : t.BufferInv := fun hinit => (h (hi ▸ hinit)).transfer hl hc hd hp ho

theorem bufferInv_of_initOk (h : t.status.initOk = false) : t.BufferInv := fun hi => absurd (hi.symm.trans h) (by decide)

/-- Only the current output buffer is written, and the palette is built if the conversion needs one. -/
theorem State.BuffersExact.writeCurrent (h : s.BuffersExact) (hl : t.l = s.l) (hsub : t.cur.sub = s.cur.sub)
    (hobuf : ∃ m, t.obuf = s.obuf.set s.cur.sub m ∧ m.Exact (bytesWritten t))
    (hbuilt : isIndexed t.l.fmt = true → t.status.palv = true) : t.BuffersExact := by
  obtain ⟨m, ho, hm⟩ := hobuf
  have hother : ∀ i, i.toNat ≠ s.cur.sub.toNat → t.obuf.get i = s.obuf.get i := fun i hi => by
    rw [ho, Obufs.get_set_other _ _ fun h => hi (congrArg BitVec.toNat h)]
  constructor
  case before =>
    intro i hi
    rw [hsub] at hi
    rw [hl, hother i hi.ne]
    exact h.before i hi
  case current => rw [hsub, ho, Obufs.get_set_same]; exact hm
  case after =>
    intro i hi
    rw [hsub] at hi
    rw [hother i hi.ne']
    exact h.after i hi
  case unbuilt => exact fun hx hv => absurd (hv.symm.trans (hbuilt hx)) (by decide)

/-- The buffers where the sub-conversion i starts, as INIT and SUBC share it. -/
theorem startSub_buffersExact {i : BitVec 2} {p : Bool}
    (hbefore : ∀ j : BitVec 2, j.toNat < i.toNat → ∃ n, expLen s.l j = some n ∧ (s.obuf.get j).Exact n)
    (hfrom : ∀ j : BitVec 2, i.toNat ≤ j.toNat → s.obuf.get j = []) (hopen : s.status.subDone i = false) :
    (if !isRaw s.l.fmt && noPixels s.l then finishEmpty (freshSub s i) p else freshSub s i).BuffersExact := by
  split <;> rename_i hstart
  · obtain ⟨hraw, hempty⟩ : isRaw s.l.fmt = false ∧ noPixels s.l = true := by simpa using hstart
    have hzero : s.l.w.toNat * s.l.h.toNat = 0 := by simpa [noPixels] using hempty
    constructor
    case before => exact hbefore
    case current =>
      have hnone : bytesWritten (finishEmpty (freshSub s i) p) = 0 :=
        bytesWritten_start rfl rfl hzero (fun _ => hzero) fun h => absurd (hraw.symm.trans h) (by decide)
      rw [hnone]
      exact Memory.exact_zero.2 (hfrom i le_rfl)
    case after => exact fun j hj => hfrom j (le_of_lt hj)
    case unbuilt => exact fun _ _ => ⟨rfl, .inr hempty⟩
  · constructor
    case before => exact hbefore
    case current =>
      have hnone : bytesWritten (freshSub s i) = 0 :=
        bytesWritten_start rfl rfl (Nat.mul_zero _) (fun h => absurd h Bool.false_ne_true) fun _ => hopen
      rw [hnone]
      exact Memory.exact_zero.2 (hfrom i le_rfl)
    case after => exact fun j hj => hfrom j (le_of_lt hj)
    case unbuilt => exact fun _ _ => ⟨rfl, .inl rfl⟩

/-! ### The pixel encoders and ENC.RAW (43 R140, R161) -/

theorem fmt_of_nPass_eq_two {f : Fmt} (h : nPass f = 2) : f = .planar565a8 := by
  unfold nPass at h
  split at h
  · assumption
  · omega

/-- The advance leaves the count of the bytes up to the next column, also where the alpha plane starts. -/
theorem bytesWritten_advance {e : Encoder} (hcur : currentEncoder s = some e) (he : e ≠ .raw)
    (hv : (indexBits e).isSome = true → s.status.palv = true) (hx : s.cur.x.toNat < s.l.w.toNat)
    (hy : s.cur.y.toNat < s.l.h.toNat) :
    bytesWritten (advance s) = bytesBefore s.l e (s.cur.x.toNat + 1) s.cur.y.toNat := by
  rw [← bytesBefore_nextXY e hx hy]
  have hnext : currentEncoder { s with cur := s.cur.nextXY s.l } = some e := (currentEncoder_nextXY s).trans hcur
  rcases advance_cases s with ⟨-, ht⟩ | ⟨hend, hlast, ht⟩ | ⟨-, -, ht⟩ <;> rw [ht]
  case inl => exact bytesWritten_of_encoder hnext he hv
  case inr.inl =>
    have hplanar : s.l.fmt = .planar565a8 := fmt_of_nPass_eq_two (nPass_eq_two_of_lt hlast)
    have hfirst : s.cur.pass = false := by
      cases hp : s.cur.pass with
      | false => rfl
      | true => rw [hp, hplanar] at hlast; exact absurd hlast (by decide)
    obtain rfl : e = .pl565 := by
      rw [currentEncoder, encSel, hplanar, hfirst] at hcur
      exact (Option.some.inj hcur).symm
    have hplane : currentEncoder { s with cur := { s.cur.nextXY s.l with pass := true, y := 0 } } = some .pla8 := by
      rw [currentEncoder, encSel, hplanar]; rfl
    have hcol : (s.cur.nextXY s.l).x = 0 := (Cursor.nextXY_bounds hx hy).2.2 hend
    rw [bytesWritten_of_encoder hplane (by decide) nofun, hend, hcol]
    exact bytesBefore_planes s.l
  case inr.inr =>
    exact bytesWritten_of_encoder (s := { s with cur := s.cur.nextXY s.l, status := s.status.complete s.cur.sub }) hnext he hv

/-- Inside a pass of pixels the cursor is inside the raster. -/
theorem State.Inv.cursor_lt_of_pixel (h : s.Inv) {e : Encoder} (hi : s.status.initOk = true)
    (hs : s.status.subDone s.cur.sub = false) (hcur : currentEncoder s = some e) (he : e ≠ .raw) :
    s.cur.x.toNat < s.l.w.toNat ∧ s.cur.y.toNat < s.l.h.toNat := by
  have hraw : isRaw s.l.fmt = false := by rw [isRaw_of_currentEncoder hcur, decide_eq_false he]
  have hok := (h.converting hi).pixelCursor hraw
  rw [State.CursorOk, hs] at hok
  exact ⟨hok.1, hok.2.1⟩

/-- An indexed encoder that is ready has its palette (43 R140). -/
theorem palv_of_encoderReady {e : Encoder} {d : Status} (h : encoderReady e d = true) (hk : (indexBits e).isSome = true) :
    d.palv = true := by
  simpa [encoderReady, isTrueColour_indexed hk, hk] using h

/-- The pixel encoders: the own rule writes up to the next column, where the advance puts the cursor (43 R140). -/
theorem exec_encoder_bufferInv (hinv : s.Inv) (h : s.BufferInv) {e : Encoder} (he : e ≠ .raw)
    (hx : exec (encoderInstr e) s = .next t) : t.BufferInv := by
  refine (exec_encoder_ends he hx).kept bufferInv_of_initOk h fun ⟨hc, m, hw, ht⟩ => ?_
  obtain ⟨hi, hs, hcur, hready⟩ := encoderChecks_eq_ok.1 hc
  obtain ⟨hcol, hrow⟩ := hinv.cursor_lt_of_pixel hi hs hcur he
  have hv := palv_of_encoderReady hready
  have hnow := (h hi).current
  rw [bytesWritten_of_encoder hcur he hv] at hnow
  have hm := writePixel_exact hnow hw
  rw [curObuf_setCurObuf] at hm
  have hcount : bytesWritten t = bytesBefore s.l e (s.cur.x.toNat + 1) s.cur.y.toNat := by
    rw [ht, afterPixel_eq_advance]
    exact bytesWritten_advance hcur he hv hcol hrow
  obtain ⟨d, hstatus⟩ := afterPixel_status e (setCurObuf s m)
  refine fun _ => (h hi).writeCurrent (by simp [ht]) (by simp [ht]) ⟨m, by simp [ht], hcount ▸ hm⟩ fun hx => ?_
  rw [ht, hstatus]
  refine hv ?_
  rwa [ht, afterPixel_l, setCurObuf_l, isIndexed_of_currentEncoder hcur] at hx

/-- ENC.RAW (43 R161): the buffer it fills was empty. -/
theorem exec_raw_bufferInv (h : s.BufferInv) (hx : exec .encRaw s = .next t) : t.BufferInv := by
  refine (exec_raw_ends hx).kept bufferInv_of_initOk h fun ⟨hc, bytes, hbytes, ht⟩ => ?_
  obtain ⟨hi, hs, hcur, -⟩ := encoderChecks_eq_ok.1 hc
  have hempty := (h hi).current
  rw [bytesWritten_of_raw hcur, hs] at hempty
  have hfull := hempty.writeList bytes
  have hcount : bytesWritten t = 0 + bytes.length := by
    have hraw : bytesWritten t = if t.status.subDone t.cur.sub then t.l.rawlen.toNat else 0 := bytesWritten_of_raw (ht ▸ hcur)
    have hdone : t.status.subDone t.cur.sub = true := ht ▸ Status.subDone_complete_same _ _
    rw [hraw, if_pos hdone, fetchBytes_length hbytes, Nat.zero_add, ht]; rfl
  refine fun _ => (h hi).writeCurrent (by simp [ht]) (by simp [ht]) ⟨_, by rw [ht]; rfl, hcount ▸ hfull⟩ fun hx => ?_
  rw [ht, complete_l, setCurObuf_l, isIndexed_of_currentEncoder hcur] at hx
  cases hx

/-! ### PALB (42 R127 to R130) -/

/-- The palette region has four bytes for each of its P entries (42 R130). -/
theorem length_regionBytes {cs : List Color} {p : Nat} (hcs : cs.length ≤ p) (hp : p ≤ 256) :
    (regionBytes (paletteOf cs) p).length = 4 * p := by
  have hentries : ∀ part ∈ ((paletteOf cs).take p).map bgraBytes, part.length = 4 := fun part h => by
    obtain ⟨c, -, rfl⟩ := List.mem_map.1 h
    rfl
  rw [regionBytes, List.flatMap_def, length_flatten_of_length hentries, List.length_map, List.length_take,
    length_paletteOf (hcs.trans hp), min_eq_left hp]

/-- The cursor of a pixel format is never below the image. -/
theorem State.Inv.row_le (h : s.Inv) (hi : s.status.initOk = true) (hraw : isRaw s.l.fmt = false) :
    s.cur.y.toNat ≤ s.l.h.toNat := by
  have hok := (h.converting hi).pixelCursor hraw
  rw [State.CursorOk] at hok
  split at hok
  · rw [hok.2.1]
  · exact hok.2.1.le

/-- Before the palette is built the buffer is empty, and the cursor is at the first pixel or the image has none: the region is
all there is afterwards. -/
theorem palbBody_bufferInv (h : s.BufferInv) (hinv : s.Inv) (hb : palbBody s = .ok t) : t.BufferInv := by
  obtain ⟨p, image, hp, -, hacc⟩ := palbBody_eq_ok.1 hb
  obtain ⟨hi, hpal, hv⟩ := palbChecks_eq_ok.1 hp
  obtain ⟨e, k, hcur, hk, rfl⟩ := paletteAt_eq_ok.1 hpal
  obtain ⟨hok, ht⟩ := acceptAnswer_eq_ok.1 hacc
  have hexact := h hi
  have hindexed : isIndexed s.l.fmt = true := by rw [isIndexed_of_currentEncoder hcur, hk]; rfl
  have he : e ≠ .raw := fun h => by rw [h] at hk; cases hk
  obtain ⟨hx, hy⟩ := hexact.unbuilt hindexed hv
  have hrow : s.l.w.toNat * s.cur.y.toNat = 0 := by
    rcases hy with hy | hy
    · rw [hy]; rfl
    · have hzero : s.l.w.toNat * s.l.h.toNat = 0 := by simpa [noPixels] using hy
      have hraw : isRaw s.l.fmt = false := by rw [isRaw_of_currentEncoder hcur, decide_eq_false he]
      exact Nat.eq_zero_of_le_zero (hzero ▸ Nat.mul_le_mul_left _ (hinv.row_le hi hraw))
  have hempty := hexact.current
  rw [bytesWritten_of_unbuilt hcur (by rw [hk]; rfl) hv] at hempty
  have hregion := hempty.writeList
    (regionBytes (paletteOf (collaborator s (palRequest s.l image (palSize k))).colors) (palSize k))
  rw [length_regionBytes (answerOk_iff.1 hok).1 (palSize_le hk), Nat.zero_add] at hregion
  have hcount : bytesWritten t = 4 * palSize k := by
    have hbuilt : bytesWritten t = bytesBefore s.l e s.cur.x.toNat s.cur.y.toNat := by
      rw [ht]; exact bytesWritten_of_encoder hcur he fun _ => rfl
    have hplane : e = .pla8 → s.l.w.toNat * s.l.h.toNat = 0 := fun h => by rw [h] at hk; cases hk
    rw [hbuilt, hx]
    exact (bytesBefore_first hrow hplane).trans (by rw [regionLength, hk])
  exact fun _ => hexact.writeCurrent (by rw [ht]; rfl) (by rw [ht]; rfl) ⟨_, by rw [ht]; rfl, hcount ▸ hregion⟩
    fun _ => by rw [ht]

/-! ### INIT, RUN and SUBC (44 R170, R175) -/

/-- INIT empties the output buffers (44 R170). -/
theorem startImage_bufferInv (l : Latched) (w : Bool) (s : State) : (startImage l w s).BufferInv := fun _ => by
  have hempty : ∀ j : BitVec 2, Obufs.empty.get j = [] := by decide
  have := startSub_buffersExact (i := 0) (p := nPass l.fmt == 2)
    (s := { s with l := l, obuf := Obufs.empty, status := { s.status with warn := w, subdone := 0 } })
    (fun j hj => absurd hj (Nat.not_lt_zero _)) (fun j _ => hempty j) (by simp [Status.subDone])
  exact this.transfer rfl rfl rfl rfl rfl

theorem exec_init_bufferInv (hx : exec .init s = .next t) : t.BufferInv := by
  rcases exec_init_eq_next hx with ⟨f, -, -, rfl⟩ | ⟨c, -, rfl⟩
  · exact startImage_bufferInv _ _ _
  · exact bufferInv_of_initOk rfl

theorem exec_run_bufferInv (hx : exec .run s = .next t) : t.BufferInv := by
  rcases exec_run_eq_next hx with ⟨u, -, hinit, rfl⟩ | ⟨c, -, rfl⟩
  · have h : u.BufferInv := exec_init_bufferInv hinit
    exact h.transfer rfl rfl rfl rfl rfl rfl
  · exact bufferInv_of_initOk rfl

/-- INIT latches only requests whose encoder exists (30 R92). -/
theorem State.Inv.exists_currentEncoder (h : s.Inv) : ∃ e, currentEncoder s = some e := by
  rw [currentEncoder]
  unfold encSel
  split
  case h_16 => split <;> exact ⟨_, rfl⟩
  case h_17 hf | h_18 hf | h_19 hf =>
    split
    case isTrue ho =>
      obtain ⟨hlow, hhigh⟩ := h.encoder ho (by rw [hf]; rfl)
      have hb : s.l.binsub.toNat = 1 ∨ s.l.binsub.toNat = 2 ∨ s.l.binsub.toNat = 3 ∨ s.l.binsub.toNat = 4 := by omega
      rcases hb with hb | hb | hb | hb <;> rw [hb] <;> exact ⟨_, rfl⟩
    case isFalse => split <;> exact ⟨_, rfl⟩
  all_goals exact ⟨_, rfl⟩

/-- The planes belong to the planar format (30 R92). -/
theorem fmt_of_encSel_plane {l : Latched} {i : BitVec 2} {p : Bool} {e : Encoder} (h : encSel l i p = some e)
    (he : e = .pl565 ∨ e = .pla8) : l.fmt = .planar565a8 := by
  unfold encSel at h
  split at h
  case h_16 hf => exact hf
  case h_17 | h_18 | h_19 => split at h <;> split at h <;> cases h <;> simp at he
  all_goals cases h; simp at he

/-- ExpLen is what the encoder of the last pass has written at the end of the image (43 R162). -/
theorem expLen_eq_bytesBefore {l : Latched} {i : BitVec 2} {e : Encoder}
    (h : encSel l i (decide (nPass l.fmt = 2)) = some e) (he : e ≠ .raw) : expLen l i = some (bytesBefore l e 0 l.h.toNat) := by
  by_cases hf : l.fmt = .planar565a8
  · have hcolour : encSel l i false = some .pl565 := by rw [encSel, hf]; rfl
    obtain rfl : e = .pla8 := by
      rw [encSel, hf] at h
      exact (Option.some.inj h).symm
    simp only [expLen, hcolour, bytesBefore, Option.some.injEq]
    ring
  · have hplane : e ≠ .pl565 ∧ e ≠ .pla8 := ⟨fun h' => hf (fmt_of_encSel_plane h (.inl h')),
      fun h' => hf (fmt_of_encSel_plane h (.inr h'))⟩
    have hpass : decide (nPass l.fmt = 2) = false := decide_eq_false fun h2 => hf (fmt_of_nPass_eq_two h2)
    rw [hpass] at h
    cases e
    case raw => exact absurd rfl he
    case pl565 => exact absurd rfl hplane.1
    case pla8 => exact absurd rfl hplane.2
    all_goals simp [expLen, h, bytesBefore, ceilDiv_zero, Nat.mul_assoc]

/-- A complete output buffer holds ExpLen bytes (43 R162). -/
theorem expLen_of_complete (hinv : s.Inv) (hi : s.status.initOk = true) (hd : s.status.subDone s.cur.sub = true)
    (hv : isIndexed s.l.fmt = true → s.status.palv = true) : expLen s.l s.cur.sub = some (bytesWritten s) := by
  obtain ⟨e, hcur⟩ := hinv.exists_currentEncoder
  have hconv := hinv.converting hi
  by_cases he : e = .raw
  · subst he
    have hfirst : s.cur.pass = false := (hconv.rawCursor (isRaw_of_currentEncoder hcur)).2.2
    have hsel : encSel s.l s.cur.sub false = some .raw := hfirst ▸ hcur
    rw [bytesWritten_of_raw hcur, if_pos hd, expLen, hsel]
  · have hraw : isRaw s.l.fmt = false := by rw [isRaw_of_currentEncoder hcur, decide_eq_false he]
    have hok := hconv.pixelCursor hraw
    rw [State.CursorOk, if_pos hd] at hok
    obtain ⟨hx, hy, hpass⟩ := hok
    rw [bytesWritten_of_encoder hcur he fun hk => hv (by rw [isIndexed_of_currentEncoder hcur, hk]), hx, hy]
    exact expLen_eq_bytesBefore (hpass ▸ hcur) he

/-- A request with four sub-conversions is composite, so it is not indexed (44 R174). -/
theorem isIndexed_of_nSub_eq_four {f : Fmt} {o : Bool} (h : nSub f o = 4) : isIndexed f = false := by
  cases f <;> cases o <;> revert h <;> decide

/-- SUBC: the sub-conversion before the new one is complete, the output buffers from the new one on are empty. -/
theorem exec_subc_bufferInv (hinv : s.Inv) (h : s.BufferInv) {i : BitVec 2} (hx : exec (.subc i) s = .next t) : t.BufferInv := by
  refine (exec_subc_ends hx).kept bufferInv_of_initOk h fun ⟨hi, hn, hnext, hd, ht⟩ _ => ?_
  have hexact := h hi
  have hfour := hinv.nsub.symm.trans hn
  obtain ⟨hraw, -⟩ := nSub_eq_four hfour
  have hother : ∀ j : BitVec 2, j.toNat ≠ i.toNat → (s.obuf.set i []).get j = s.obuf.get j := fun j hj =>
    Obufs.get_set_other _ _ fun h => hj (congrArg BitVec.toNat h)
  have hbefore : ∀ j : BitVec 2, j.toNat < i.toNat →
      ∃ n, expLen s.l j = some n ∧ ((s.obuf.set i []).get j).Exact n := fun j hj => by
    rw [hother j hj.ne]
    rcases Nat.lt_or_eq_of_le (Nat.le_of_lt_succ (hnext ▸ hj)) with hj | hj
    · exact hexact.before j hj
    · rw [BitVec.eq_of_toNat_eq hj]
      have hplain : isIndexed s.l.fmt = true → s.status.palv = true := fun hx =>
        absurd ((isIndexed_of_nSub_eq_four hfour).symm.trans hx) (by decide)
      exact ⟨_, expLen_of_complete hinv hi hd hplain, hexact.current⟩
  have hfrom : ∀ j : BitVec 2, i.toNat ≤ j.toNat → (s.obuf.set i []).get j = [] := fun j hj => by
    rcases Nat.eq_or_lt_of_le hj with hj | hj
    · rw [BitVec.eq_of_toNat_eq hj, Obufs.get_set_same]
    · rw [hother j hj.ne']
      exact hexact.after j (by omega)
  have hopen : s.status.subDone i = false := (hinv.converting hi).after i (by omega)
  have hstart := startSub_buffersExact (s := { s with obuf := s.obuf.set i [] }) (p := false) hbefore hfrom hopen
  rw [ht]
  simpa [hraw] using hstart

/-! ### Every command keeps the output buffers exact -/

/-- Every command keeps the output buffers exact: the encoders and PALB write the current one, INIT, RUN and SUBC start a
sub-conversion, and the others leave all of these alone. -/
theorem exec_bufferInv (hinv : s.Inv) (h : s.BufferInv) {i : Instr} (hx : exec i s = .next t) : t.BufferInv := by
  rcases Instr.cases_encoder i with
    ⟨e, he, rfl⟩ | rfl | rfl | rfl | rfl | rfl | rfl | ⟨v, b, rfl⟩ | rfl | rfl | rfl | rfl | ⟨k, rfl⟩
  · exact exec_encoder_bufferInv hinv h he hx
  · exact exec_raw_bufferInv h hx
  · exact exec_init_bufferInv hx
  · exact exec_run_bufferInv hx
  · refine (exec_palb_ends hx).kept bufferInv_of_initOk h fun heff => ?_
    rcases heff with ⟨-, hb⟩ | ⟨-, -, rfl⟩
    · exact palbBody_bufferInv h hinv hb
    · exact h.transfer rfl rfl rfl rfl rfl rfl
  · exact (exec_rows_ends hx).kept bufferInv_of_initOk h fun ⟨_, ht⟩ => ht ▸ h.transfer rfl rfl rfl rfl rfl rfl
  · exact (exec_qpix_ends hx).kept bufferInv_of_initOk h fun ⟨_, _, _, _, _, _, _, _, _, ht⟩ =>
      ht ▸ h.transfer rfl rfl rfl rfl rfl rfl
  · exact (exec_trunc_ends hx).kept bufferInv_of_initOk h fun ⟨_, _, ht⟩ => ht ▸ h.transfer rfl rfl rfl rfl rfl rfl
  · exact (exec_palr_ends hx).kept bufferInv_of_initOk h fun ⟨_, _, _, _, _, _, ht⟩ =>
      ht ▸ h.transfer rfl rfl rfl rfl rfl rfl
  · exact (exec_hdr_ends hx).kept bufferInv_of_initOk h fun ⟨_, _, ht⟩ => ht ▸ h.transfer rfl rfl rfl rfl rfl rfl
  · exact (exec_serb_ends hx).kept bufferInv_of_initOk h fun ⟨_, _, _, _, _, ht⟩ => ht ▸ h.transfer rfl rfl rfl rfl rfl rfl
  · exact (exec_sert_ends hx).kept bufferInv_of_initOk h fun ⟨_, _, _, ht⟩ => ht ▸ h.transfer rfl rfl rfl rfl rfl rfl
  · exact exec_subc_bufferInv hinv h hx

theorem bufferInv_keptByCommands : KeptByCommands State.BufferInv where
  sameImage := fun h hs => h.transfer hs.initOk hs.l hs.cur hs.subdone hs.palv hs.obuf
  noImage := bufferInv_of_initOk
  exec := fun hinv h hx => exec_bufferInv hinv h hx
  answer := fun hinv h hx => palbBody_bufferInv h hinv hx

/-- Settles O51: every command keeps the output buffers exact, so every step does. -/
theorem stepKeepsBuffersExact : Obligations.StepKeepsBuffersExact := fun _ _ => step_keeps bufferInv_keptByCommands

end Sys2Proof.Machine
end

section
/-! PROOF. INIT and RUN (44 R170 to R173, R181): O15, O17, O18. -/

namespace Sys2Proof.Machine

variable {s t : State} {p : Params} {cfg instat : Word} {f : Fmt}

/-! ### The fields of CFG, INSTAT, DIMS and ODIMS by their bit positions (10 R24 to R28) -/

theorem cfgFmt_toNat (cfg : Word) : (cfgFmt cfg).toNat = cfg.toNat % 32 := by
  rw [cfgFmt, toNat_extractLsb'_eq, pow_zero, Nat.div_one]
  rfl

theorem cfgBinsub_toNat (cfg : Word) : (cfgBinsub cfg).toNat = cfg.toNat / 512 % 8 := toNat_extractLsb'_eq cfg 9 3

theorem dimsW_toNat (d : Word) : (dimsW d).toNat = d.toNat % 65536 := by
  rw [dimsW, toNat_extractLsb'_eq, pow_zero, Nat.div_one]
  rfl

theorem dimsH_toNat (d : Word) : (dimsH d).toNat = d.toNat / 65536 := by
  rw [dimsH, toNat_extractLsb'_eq]
  omega

/-- One bit of a register as a number. -/
theorem getLsbD_eq_true_iff (w : Word) (k : Nat) : w.getLsbD k = true ↔ w.toNat / 2 ^ k % 2 = 1 := by
  rw [BitVec.getLsbD, Nat.testBit_eq_decide_div_mod_eq, decide_eq_true_eq]

theorem cfgOut_iff : cfgOut cfg = true ↔ cfg.toNat / 64 % 2 = 1 := getLsbD_eq_true_iff cfg 6

theorem instatDecFail_iff : instatDecFail instat = true ↔ instat.toNat % 2 = 1 := by
  rw [instatDecFail, getLsbD_eq_true_iff, pow_zero, Nat.div_one]

theorem instatOvrValid_iff : instatOvrValid instat = true ↔ instat.toNat / 2 % 2 = 1 := getLsbD_eq_true_iff instat 1

/-- The known formats have the values below 0x13 (30 R88). -/
theorem fmtOfCode_eq_none_iff {v : BitVec 5} : fmtOfCode v = none ↔ 0x13 ≤ v.toNat := List.getElem?_eq_none_iff

/-- The composite and the raw formats are the ranges 0x10 to 0x12 and 0x0C to 0x0E (30 R88). -/
theorem family_of_fmtOfCode {v : BitVec 5} (h : fmtOfCode v = some f) :
    (isComposite f = true ↔ 0x10 ≤ v.toNat ∧ v.toNat ≤ 0x12) ∧ (isRaw f = true ↔ 0x0C ≤ v.toNat ∧ v.toNat ≤ 0x0E) := by
  have hall : ∀ v : BitVec 5, ∀ f ∈ fmtOfCode v, (isComposite f = true ↔ 0x10 ≤ v.toNat ∧ v.toNat ≤ 0x12) ∧
      (isRaw f = true ↔ 0x0C ≤ v.toNat ∧ v.toNat ≤ 0x0E) := by decide
  exact hall v f h

/-! ### The checks of INIT (44 R171, 60 R219) -/

theorem validate_unknown (h : fmtOfCode (cfgFmt cfg) = none) :
    validate p cfg instat = .error (.raise .ceUnknownFormat) := by simp only [validate, h]

/-- The checks on a known format, in their order. -/
theorem validate_known (h : fmtOfCode (cfgFmt cfg) = some f) : validate p cfg instat =
    if cfgOut cfg = true ∧ isComposite f = true ∧ 5 ≤ (cfgBinsub cfg).toNat then .error (.raise .ceUnknownFormat)
    else if cfgOut cfg = true ∧ isComposite f = true ∧ (cfgBinsub cfg).toNat = 0 then .error (.raise .ceNoBinsub)
    else if cfgOut cfg = true ∧ formatCode p f = none then .error (.raise .ceNoFormatCode)
    else if instatDecFail instat = true ∧ isRaw f = false then .error (.raise .loadError)
    else .ok f := by
  have hreq : ∀ (b : Bool) (c : ErrCode) (k : Unit → Except Stop Fmt),
      (require (!b) c >>= k) = if b = true then .error (.raise c) else k () := fun b c k => by cases b <;> rfl
  simp only [validate, h, hreq, badBinsub, noBinsub, Bool.and_eq_true, Bool.not_eq_true', decide_eq_true_eq, and_assoc,
    Option.isNone_iff_eq_none, pure_eq_ok]

/-- A valid request passes every check. -/
theorem validate_valid (h : fmtOfCode (cfgFmt cfg) = some f)
    (hsub : cfgOut cfg = true → isComposite f = true → 1 ≤ (cfgBinsub cfg).toNat ∧ (cfgBinsub cfg).toNat ≤ 4)
    (hcode : cfgOut cfg = true → formatCode p f ≠ none) (hload : instatDecFail instat = true → isRaw f = true) :
    validate p cfg instat = .ok f := by
  rw [validate_known h, if_neg fun ⟨ho, hc, hb⟩ => absurd (hsub ho hc).2 (by omega),
    if_neg fun ⟨ho, hc, hb⟩ => absurd (hsub ho hc).1 (by omega), if_neg fun ⟨ho, hn⟩ => hcode ho hn,
    if_neg fun ⟨hd, hr⟩ => absurd ((hload hd).symm.trans hr) (by decide)]

theorem exec_init_raises_of_validate {c : ErrCode} (h : validate s.params s.cfg s.instat = .error (.raise c)) :
    exec .init s = .next (raiseError c (clearOutcome s)) := by
  have hbody : initBody (clearOutcome s) = .error (.raise c) := by
    simp only [initBody, clearOutcome_params, clearOutcome_cfg, clearOutcome_instat, h, bind_error]
  rw [exec, execInit, hbody, settle_raise]

theorem exec_init_raises_of_dims (h : validate s.params s.cfg s.instat = .ok f) (ho : cfgOut s.cfg = true)
    (hd : 2047 < (chooseDims s.dims s.odims s.instat).1.toNat ∨ 2047 < (chooseDims s.dims s.odims s.instat).2.1.toNat) :
    exec .init s = .next (raiseError .ceDimsRange (clearOutcome s)) := by
  have hbody : initBody (clearOutcome s) = .error (.raise .ceDimsRange) := by
    rcases hd with hd | hd <;> simp [initBody, h, ho, hd]
  rw [exec, execInit, hbody, settle_raise]

/-- INIT of a request that passes its checks. -/
theorem exec_init_starts {w h : BitVec 16} {warn : Bool} (hv : validate s.params s.cfg s.instat = .ok f)
    (hdims : chooseDims s.dims s.odims s.instat = (w, h, warn)) (hfit : cfgOut s.cfg = true → w.toNat ≤ 2047 ∧ h.toNat ≤ 2047) :
    exec .init s = .next (startImage (latch s.cfg f w h s.rawlen) warn (clearOutcome s)) := by
  have hbody : initBody (clearOutcome s) = .ok (startImage (latch s.cfg f w h s.rawlen) warn (clearOutcome s)) := by
    cases ho : cfgOut s.cfg with
    | false => simp [initBody, hv, hdims, ho]
    | true => simp [initBody, hv, hdims, ho, Nat.not_lt.2 (hfit ho).1, Nat.not_lt.2 (hfit ho).2]
  rw [exec, execInit, hbody, settle_ok]

/-- The dimensions INIT chooses, as numbers (44 R172). -/
theorem chooseDims_toNat (dims odims instat : Word) :
    (chooseDims dims odims instat).1.toNat = (if instat.toNat % 2 = 0 then dims.toNat % 65536
      else if instat.toNat / 2 % 2 = 1 then odims.toNat % 65536 else 0) ∧
    (chooseDims dims odims instat).2.1.toNat = (if instat.toNat % 2 = 0 then dims.toNat / 65536
      else if instat.toNat / 2 % 2 = 1 then odims.toNat / 65536 else 0) := by
  have hfail : (!instatDecFail instat) = true ↔ instat.toNat % 2 = 0 := by
    rw [Bool.not_eq_true', ← Bool.not_eq_true, instatDecFail_iff]
    omega
  simp only [chooseDims, hfail, instatOvrValid_iff]
  split
  · exact ⟨dimsW_toNat _, dimsH_toNat _⟩
  · split
    · exact ⟨dimsW_toNat _, dimsH_toNat _⟩
    · exact ⟨rfl, rfl⟩

/-- Settles O15: the branches of `validate_known` in their order, then the dimensions. -/
theorem initErrorsInOrder : Obligations.InitErrorsInOrder := by
  intro s fmt out binsub composite fails unknown nosub nocode load w h
  cases hf : fmtOfCode (cfgFmt s.cfg) with
  | none =>
    have hunknown : unknown := .inl (by simpa only [cfgFmt_toNat] using fmtOfCode_eq_none_iff.1 hf)
    exact ⟨fun _ => exec_init_raises_of_validate (validate_unknown hf), fun hu => absurd hunknown hu,
      fun hu => absurd hunknown hu, fun hu => absurd hunknown hu, fun hu => absurd hunknown hu⟩
  | some f =>
    have hknown : ¬ 0x13 ≤ fmt := fun h13 => by
      rw [fmtOfCode_eq_none_iff.2 (by rwa [cfgFmt_toNat])] at hf
      cases hf
    obtain ⟨hcomposite, hraw⟩ := family_of_fmtOfCode hf
    rw [cfgFmt_toNat] at hcomposite hraw
    have hunknown : (cfgOut s.cfg = true ∧ isComposite f = true ∧ 5 ≤ (cfgBinsub s.cfg).toNat) ↔ unknown := by
      rw [cfgOut_iff, hcomposite, cfgBinsub_toNat]
      exact (or_iff_right hknown).symm
    have hnosub : (cfgOut s.cfg = true ∧ isComposite f = true ∧ (cfgBinsub s.cfg).toNat = 0) ↔ nosub := by
      rw [cfgOut_iff, hcomposite, cfgBinsub_toNat]
    have hnocode : (cfgOut s.cfg = true ∧ formatCode s.params f = none) ↔ nocode := by
      simp only [nocode, hf, Option.bind_some, cfgOut_iff, out]
    have hload : (instatDecFail s.instat = true ∧ isRaw f = false) ↔ load := by
      rw [instatDecFail_iff, ← Bool.not_eq_true, hraw]
    have hchecks := validate_known (p := s.params) (instat := s.instat) hf
    refine ⟨fun hu => ?_, fun hu hn => ?_, fun hu hn hc => ?_, fun hu hn hc hl => ?_, fun hu hn hc hl ho hd => ?_⟩
    · exact exec_init_raises_of_validate (hchecks.trans (if_pos (hunknown.2 hu)))
    · rw [if_neg (mt hunknown.1 hu), if_pos (hnosub.2 hn)] at hchecks
      exact exec_init_raises_of_validate hchecks
    · rw [if_neg (mt hunknown.1 hu), if_neg (mt hnosub.1 hn), if_pos (hnocode.2 hc)] at hchecks
      exact exec_init_raises_of_validate hchecks
    · rw [if_neg (mt hunknown.1 hu), if_neg (mt hnosub.1 hn), if_neg (mt hnocode.1 hc), if_pos (hload.2 hl)] at hchecks
      exact exec_init_raises_of_validate hchecks
    · rw [if_neg (mt hunknown.1 hu), if_neg (mt hnosub.1 hn), if_neg (mt hnocode.1 hc), if_neg (mt hload.1 hl)] at hchecks
      obtain ⟨hw, hh⟩ := chooseDims_toNat s.dims s.odims s.instat
      exact exec_init_raises_of_dims hchecks (cfgOut_iff.2 ho) (hd.imp (fun hd => hw ▸ hd) (fun hd => hh ▸ hd))

/-! ### INIT of a valid request (44 R170, R172, R173) -/

theorem noPixels_iff {l : Latched} : noPixels l = true ↔ l.w.toNat * l.h.toNat = 0 := beq_iff_eq

/-- The start of a sub-conversion without pixels, which INIT and SUBC share, written out (44 R170, R175). -/
theorem finishEmpty_freshSub_eq (s : State) (i : BitVec 2) (pass : Bool) : finishEmpty (freshSub s i) pass =
    { s with
      status := { s.status with palv := false, actv := false, subdone := s.status.subdone ||| (1#4 <<< i.toNat) }
      act := ⟨0, 0, 0⟩, nerr := ⟨0, 0, 0⟩, earr := ⟨zeroEarr s.l.w, zeroEarr s.l.w, zeroEarr s.l.w⟩
      cur := { sub := i, pass := pass, y := s.l.h, x := 0 } } := rfl

/-- The state INIT leaves, written out. -/
theorem startImage_eq (l : Latched) (warn : Bool) (s : State) : startImage l warn s =
    { s with
      l := l, obuf := Obufs.empty
      status := { s.status with
        warn := warn, palv := false, actv := false, initOk := true
        subdone := if isRaw l.fmt = false ∧ l.w.toNat * l.h.toNat = 0 then 1 else 0 }
      act := ⟨0, 0, 0⟩, nerr := ⟨0, 0, 0⟩, earr := ⟨zeroEarr l.w, zeroEarr l.w, zeroEarr l.w⟩
      cur := if isRaw l.fmt = false ∧ l.w.toNat * l.h.toNat = 0 then
          { sub := 0, pass := decide (l.fmt = .planar565a8), y := l.h, x := 0 }
        else { sub := 0, pass := false, y := 0, x := 0 } } := by
  have hpass : (nPass l.fmt == 2) = decide (l.fmt = .planar565a8) := by cases l.fmt <;> rfl
  have hempty : (!isRaw l.fmt && noPixels l) = true ↔ isRaw l.fmt = false ∧ l.w.toNat * l.h.toNat = 0 := by
    rw [Bool.and_eq_true, Bool.not_eq_true', noPixels_iff]
  by_cases h : isRaw l.fmt = false ∧ l.w.toNat * l.h.toNat = 0
  · have hfirst : (0 : BitVec 4) ||| (1#4 <<< (0 : BitVec 2).toNat) = 1 := by decide
    simp only [startImage, if_pos h, if_pos (hempty.2 h), hpass, finishEmpty_freshSub_eq, hfirst]
  · simp only [startImage, if_neg h, if_neg (mt hempty.1 h)]
    rfl

/-- Settles O17: the checks pass and `startImage_eq` writes the state out. -/
theorem initStartsConversion : Obligations.InitStartsConversion := by
  intro s f w h warn hf hsub hcode hraw hdims hfit
  have hchosen : chooseDims s.dims s.odims s.instat = (w, h, warn) := by
    rw [hdims, chooseDims, instatDecFail]
    cases s.instat.getLsbD 0 <;> rfl
  rw [exec_init_starts (validate_valid hf hsub hcode hraw) hchosen hfit, startImage_eq]
  have hnsub : nSub f (cfgOut s.cfg) = if isComposite f = true ∧ s.cfg.getLsbD 6 = false then 4 else 1 := by
    simp only [nSub, cfgOut, Bool.and_eq_true, Bool.not_eq_true']
  rw [← hnsub]
  rfl

/-! ### RUN (44 R181) -/

/-- RUN goes on where INIT ends without an error. -/
theorem exec_run_of_exec_init (h : exec .init s = .next t) :
    exec .run s = .next (if t.status.err then t else startRun t) := by
  rcases settle_eq_next.1 h with hbody | ⟨c, hbody, rfl⟩
  · rw [exec, execRun, hbody, bind_ok, pure_eq_ok, settle_ok, initBody_err hbody]
    rfl
  · rw [exec, execRun, hbody, bind_error, settle_raise]
    rfl

/-- RUN of a request that passes its checks. -/
theorem exec_run_starts {w h : BitVec 16} {warn : Bool} (hv : validate s.params s.cfg s.instat = .ok f)
    (hdims : chooseDims s.dims s.odims s.instat = (w, h, warn)) (hfit : cfgOut s.cfg = true → w.toNat ≤ 2047 ∧ h.toNat ≤ 2047) :
    exec .run s = .next (startRun (startImage (latch s.cfg f w h s.rawlen) warn (clearOutcome s))) := by
  rw [exec_run_of_exec_init (exec_init_starts hv hdims hfit), startImage_eq]
  rfl

theorem chooseDims_decoded {dims odims : Word} (h : instatDecFail instat = false) :
    chooseDims dims odims instat = (dimsW dims, dimsH dims, false) := by rw [chooseDims, h]; rfl

/-- Settles O18: `exec_run_of_exec_init`, and INIT of a valid request. -/
theorem runIsInitThenProgram : Obligations.RunIsInitThenProgram := by
  refine ⟨fun s t hx => ⟨fun he => ?_, fun he => ?_⟩, fun s f hf hsub hcode hd hfit => ?_⟩
  · rw [exec_run_of_exec_init hx, he]
    rfl
  · rw [exec_run_of_exec_init hx, he]
    rfl
  · have hvalid : validate s.params s.cfg s.instat = .ok f :=
      validate_valid hf hsub hcode fun hfail => absurd (hd.symm.trans hfail) (by decide)
    have hdims := chooseDims_decoded (dims := s.dims) (odims := s.odims) hd
    refine ⟨_, exec_init_starts hvalid hdims hfit, ?_, ?_, exec_run_starts hvalid hdims hfit⟩
    · rw [startImage_eq]
    · rw [startImage_l]
      rfl

end Sys2Proof.Machine
end

section
/-! PROOF. SUBC and Prog(L) (44 R174, R175, R180): O19, O20. -/

namespace Sys2Proof.Machine

variable {s : State} {l : Latched} {e : Encoder} {i : BitVec 2}

/-! ### SUBC (44 R175) -/

/-- SUBC past its checks. -/
theorem exec_subc_starts (he : s.status.err = false) (hi : s.status.initOk = true) (hn : s.l.nsub = 4)
    (hnext : i.toNat = s.cur.sub.toNat + 1) (hd : s.status.subDone s.cur.sub = true) :
    exec (.subc i) s = .next (if noPixels s.l then finishEmpty (freshSub { s with obuf := s.obuf.set i [] } i) false
      else freshSub { s with obuf := s.obuf.set i [] } i) := by
  refine (runCommand_ok (subcBody i) he).trans ?_
  simp only [subcBody, hi, hn, hnext, hd, decide_true, Bool.and_self, require_true, bind_ok, pure_eq_ok, settle_ok]

/-- Settles O19: the image has pixels or not. -/
theorem subcStartsNext : Obligations.SubcStartsNext := by
  intro s i he hi hn hnext hd
  rw [exec_subc_starts he hi hn hnext hd]
  by_cases h : s.l.w.toNat * s.l.h.toNat = 0
  · simp only [if_pos (noPixels_iff.2 h), if_pos h]
    rfl
  · simp only [if_neg (mt noPixels_iff.1 h), if_neg h]
    rfl

/-! ### The passes of Prog(L) (44 R180) -/

/-- A true-colour encoder runs ROWS for every row and QPIX for every pixel. -/
theorem passProg_colour {pass : Bool} (h : encSel l i pass = some e) (ht : isTrueColour e = true) :
    passProg l i pass = colourPass l e := by
  simp only [passProg, h, colourPass, rowProg, pixelProg, ht, if_true, noPixels_iff, List.singleton_append]

/-- Every other encoder runs alone, pixel after pixel. -/
theorem passProg_plain {pass : Bool} (h : encSel l i pass = some e) (ht : isTrueColour e = false) :
    passProg l i pass = plainPass l e := by
  have hrow : rowProg e l.w.toNat = List.replicate l.w.toNat (encoderInstr e) := by
    simp [rowProg, pixelProg, ht, List.flatten_replicate_singleton]
  simp only [passProg, h, plainPass, hrow, noPixels_iff, List.flatten_replicate_replicate]
  split <;> rename_i hp
  · rw [hp]; rfl
  · rw [Nat.mul_comm]

/-! ### The sub-conversions of Prog(L) (44 R174, R180) -/

/-- The serializer commands that end Prog(L). -/
def serializerProg (l : Latched) : List Instr := if l.out then [.hdr, .serb] else [.sert]

theorem prog_raw (h : isRaw l.fmt = true) : prog l = [.encRaw] ++ serializerProg l := by rw [prog, if_pos h]; rfl

/-- A request with one sub-conversion. -/
theorem prog_of_one_sub (hraw : isRaw l.fmt = false) (hn : nSub l.fmt l.out ≠ 4) :
    prog l = (if isIndexed l.fmt then [.palb] else []) ++ passProg l 0 false ++
      (if nPass l.fmt = 2 then passProg l 0 true else []) ++ serializerProg l := by
  rw [prog, if_neg (by simp [hraw]), subsOf, if_neg hn]
  simp only [List.flatMap_cons, List.flatMap_nil, subProg, if_true, List.append_nil, List.nil_append]
  rfl

/-- A request with one colour pass. -/
theorem prog_of_colour_pass (hsel : encSel l 0 false = some e) (ht : isTrueColour e = true) (hn : nSub l.fmt l.out ≠ 4)
    (hpass : nPass l.fmt ≠ 2) : prog l = colourPass l e ++ serializerProg l := by
  have hcolour : isTrueColour e = true → decide (e = .raw) = false ∧ (indexBits e).isSome = false := by cases e <;> decide
  obtain ⟨hraw, hindexed⟩ := encSel_family hsel
  rw [(hcolour ht).1] at hraw
  rw [(hcolour ht).2] at hindexed
  rw [prog_of_one_sub hraw hn, if_neg hpass, hindexed, passProg_colour hsel ht, List.append_nil]
  rfl

/-- A request with one plain pass, after PALB where it is indexed. -/
theorem prog_of_plain_pass (hsel : encSel l 0 false = some e) (ht : isTrueColour e = false) (he : e ≠ .raw)
    (hn : nSub l.fmt l.out ≠ 4) (hpass : nPass l.fmt ≠ 2) :
    prog l = (if (indexBits e).isSome then [.palb] else []) ++ plainPass l e ++ serializerProg l := by
  obtain ⟨hraw, hindexed⟩ := encSel_family hsel
  rw [decide_eq_false he] at hraw
  rw [prog_of_one_sub hraw hn, if_neg hpass, hindexed, passProg_plain hsel ht, List.append_nil]

/-- A request that is not composite has one sub-conversion. -/
theorem nSub_ne_four {f : Fmt} {out : Bool} (h : isComposite f = false ∨ out = true) : nSub f out ≠ 4 := by
  rcases h with h | h <;> simp [nSub, h]

/-- A composite text request has four sub-conversions of one colour pass. -/
theorem prog_of_four_subs {e₀ e₁ e₂ e₃ : Encoder} (hc : isComposite l.fmt = true) (ho : l.out = false)
    (h₀ : passProg l 0 false = colourPass l e₀) (h₁ : passProg l 1 false = colourPass l e₁)
    (h₂ : passProg l 2 false = colourPass l e₂) (h₃ : passProg l 3 false = colourPass l e₃) :
    prog l = colourPass l e₀ ++ [.subc 1] ++ colourPass l e₁ ++ [.subc 2] ++ colourPass l e₂ ++ [.subc 3] ++
      colourPass l e₃ ++ [.sert] := by
  have hfamily : ∀ f, isComposite f = true → isRaw f = false ∧ isIndexed f = false ∧ nPass f ≠ 2 := by
    intro f; cases f <;> decide
  obtain ⟨hraw, hindexed, hpass⟩ := hfamily l.fmt hc
  rw [← h₀, ← h₁, ← h₂, ← h₃]
  simp [prog, hraw, subsOf, nSub, hc, ho, subProg, hindexed, hpass]

/-- The pixel formats whose requests have one encoder, for one sub-conversion of one pass (30 R92, 44 R174). -/
def soleEncoders : List (Fmt × Encoder) :=
  [(.tc332, .tc332), (.tc565, .tc565), (.tc565s, .tc565s), (.tc888, .tc888), (.a1, .a1), (.a2, .a2), (.a4, .a4), (.a8, .a8),
   (.i1, .i1), (.i2, .i2), (.i4, .i4), (.i8, .i8)]

theorem one_pass_of_soleEncoder (h : (l.fmt, e) ∈ soleEncoders) :
    encSel l 0 false = some e ∧ nSub l.fmt l.out ≠ 4 ∧ nPass l.fmt ≠ 2 := by
  have hfamily : ∀ q ∈ soleEncoders, isComposite q.1 = false ∧ nPass q.1 ≠ 2 := by decide
  obtain ⟨hcomposite, hpass⟩ := hfamily _ h
  refine ⟨?_, nSub_ne_four (.inl hcomposite), hpass⟩
  rw [encSel]
  cases hf : l.fmt <;> simp_all [soleEncoders]

/-- Settles O20: one clause for each kind of format, its passes by `passProg_colour` and `passProg_plain`. -/
theorem bitmapProgram : Obligations.BitmapProgram := by
  intro l
  refine ⟨fun e he => ?_, fun e he => ?_, fun e he => ?_, fun hf => ?_, fun hf => ?_, fun hf => ⟨fun ho e he => ?_, fun ho => ?_⟩⟩
  · have hcolour : ∀ q ∈ [(Fmt.tc332, Encoder.tc332), (.tc565, .tc565), (.tc565s, .tc565s), (.tc888, .tc888)],
        q ∈ soleEncoders ∧ isTrueColour q.2 = true := by decide
    obtain ⟨hsole, ht⟩ := hcolour _ he
    obtain ⟨hsel, hn, hpass⟩ := one_pass_of_soleEncoder hsole
    exact prog_of_colour_pass hsel ht hn hpass
  · have hplain : ∀ q ∈ [(Fmt.a1, Encoder.a1), (.a2, .a2), (.a4, .a4), (.a8, .a8)],
        q ∈ soleEncoders ∧ isTrueColour q.2 = false ∧ q.2 ≠ .raw ∧ (indexBits q.2).isSome = false := by decide
    obtain ⟨hsole, ht, hraw, hindexed⟩ := hplain _ he
    obtain ⟨hsel, hn, hpass⟩ := one_pass_of_soleEncoder hsole
    rw [prog_of_plain_pass hsel ht hraw hn hpass, hindexed]
    rfl
  · have hplain : ∀ q ∈ [(Fmt.i1, Encoder.i1), (.i2, .i2), (.i4, .i4), (.i8, .i8)],
        q ∈ soleEncoders ∧ isTrueColour q.2 = false ∧ q.2 ≠ .raw ∧ (indexBits q.2).isSome = true := by decide
    obtain ⟨hsole, ht, hraw, hindexed⟩ := hplain _ he
    obtain ⟨hsel, hn, hpass⟩ := one_pass_of_soleEncoder hsole
    rw [prog_of_plain_pass hsel ht hraw hn hpass, hindexed]
    rfl
  · have hraw : ∀ f ∈ [Fmt.raw, .rawAlpha, .rawChroma], isRaw f = true := by decide
    exact prog_raw (hraw l.fmt hf)
  · have hcolour : encSel l 0 false = some .pl565 := by rw [encSel, hf]; rfl
    have halpha : encSel l 0 true = some .pla8 := by rw [encSel, hf]; rfl
    have hindexed : isIndexed l.fmt = false := by rw [hf]; rfl
    have hpasses : nPass l.fmt = 2 := by rw [hf]; rfl
    rw [prog_of_one_sub (by rw [hf]; rfl) (nSub_ne_four (.inl (by rw [hf]; rfl))), hindexed, if_pos hpasses,
      passProg_colour hcolour rfl, passProg_plain halpha rfl]
    rfl
  · have hpass : ∀ f ∈ [Fmt.trueColor, .trueColorAlpha, .trueColorChroma], nPass f ≠ 2 := by decide
    have hsel : encSel l 0 false = some e ∧ isTrueColour e = true := by
      simp only [List.mem_cons, Prod.mk.injEq, List.not_mem_nil, or_false] at hf he
      rcases hf with hf | hf | hf <;> rcases he with ⟨hb, rfl⟩ | ⟨hb, rfl⟩ | ⟨hb, rfl⟩ | ⟨hb, rfl⟩ <;>
        exact ⟨by simp only [encSel, hf, ho, hb, if_true], rfl⟩
    rw [prog_of_colour_pass hsel.1 hsel.2 (nSub_ne_four (.inr ho)) (hpass l.fmt hf), serializerProg, if_pos ho]
  · have hc : ∀ f ∈ [Fmt.trueColor, .trueColorAlpha, .trueColorChroma], isComposite f = true := by decide
    have hsel : encSel l 0 false = some .tc332 ∧ encSel l 1 false = some .tc565 ∧ encSel l 2 false = some .tc565s ∧
        encSel l 3 false = some .tc888 := by
      simp only [List.mem_cons, List.not_mem_nil, or_false] at hf
      rcases hf with hf | hf | hf <;> simp [encSel, hf, ho]
    obtain ⟨h₀, h₁, h₂, h₃⟩ := hsel
    exact prog_of_four_subs (hc l.fmt hf) ho (passProg_colour h₀ rfl) (passProg_colour h₁ rfl) (passProg_colour h₂ rfl)
      (passProg_colour h₃ rfl)

end Sys2Proof.Machine
end

section
/-! PROOF. What a command may write (44 R186; 10 R33, R34, R37; 42 R126; 20 R66): O23. -/

namespace Sys2Proof.Machine

variable {s t : State} {i : Instr}

/-- What the command `i` leaves as it was, going from s to t: the inputs always, the rest where it has no write permission. -/
structure KeepsOthers (i : Instr) (s t : State) : Prop where
  inputs : SameInputs s t
  l : i ≠ .init → i ≠ .run → t.l = s.l
  res : (∀ v b, i ≠ .trunc v b) → i ≠ .palr → i ≠ .hdr → t.res = s.res
  palette : i ≠ .palb → t.pal = s.pal ∧ t.remap = s.remap
  pq : i ≠ .run → t.pq = s.pq ∨ t.pq = []
  ostream : i ≠ .serb → i ≠ .sert → t.ostream = s.ostream ∨ t.ostream = []

theorem SameInputs.refl (s : State) : SameInputs s s := ⟨rfl, rfl, rfl, rfl, rfl, rfl, rfl, rfl, rfl, rfl, rfl, rfl, rfl⟩

theorem KeepsOthers.refl (i : Instr) (s : State) : KeepsOthers i s s where
  inputs := .refl s
  l := fun _ _ => rfl
  res := fun _ _ _ => rfl
  palette := fun _ => ⟨rfl, rfl⟩
  pq := fun _ => .inl rfl
  ostream := fun _ _ => .inl rfl

/-! ### Error entry and the old outcome (60 R215, 44 R170) -/

theorem keepsOthers_raiseError (i : Instr) (c : ErrCode) (s : State) : KeepsOthers i s (raiseError c s) :=
  { KeepsOthers.refl i s with
    inputs := { SameInputs.refl s with }
    pq := fun _ => .inr rfl
    ostream := fun _ _ => .inr rfl }

/-- INIT and RUN that raise have cleared the old outcome first. -/
theorem keepsOthers_raiseError_clearOutcome (i : Instr) (c : ErrCode) (s : State) :
    KeepsOthers i s (raiseError c (clearOutcome s)) := { keepsOthers_raiseError i c s with inputs := { SameInputs.refl s with } }

/-- A command other than INIT and RUN writes what its effect writes, or enters the error state. -/
theorem Ends.keepsOthers {effect : Prop} (h : Ends s t effect) (hk : effect → KeepsOthers i s t) : KeepsOthers i s t := by
  rcases h with ⟨-, rfl⟩ | ⟨-, heff | ⟨c, -, rfl⟩⟩
  · exact .refl i _
  · exact hk heff
  · exact keepsOthers_raiseError i c s

/-! ### The commands -/

theorem exec_encoder_keepsOthers {e : Encoder} (he : e ≠ .raw) (hx : exec (encoderInstr e) s = .next t) :
    KeepsOthers (encoderInstr e) s t :=
  (exec_encoder_ends he hx).keepsOthers fun ⟨_, m, _, ht⟩ => by
    have h : SameButPixel s t := ht ▸ sameButPixel_afterPixel e s m
    exact ⟨h.inputs, fun _ _ => h.l, fun _ _ _ => h.res, fun _ => ⟨h.pal, h.remap⟩, fun _ => .inl h.pq, fun _ _ => .inl h.ostream⟩

theorem exec_raw_keepsOthers (hx : exec .encRaw s = .next t) : KeepsOthers .encRaw s t :=
  (exec_raw_ends hx).keepsOthers fun ⟨_, _, _, ht⟩ => ht ▸ { KeepsOthers.refl _ s with inputs := { SameInputs.refl s with } }

/-- INIT writes L and clears OSTREAM. -/
theorem keepsOthers_startImage (l : Latched) (warn : Bool) (s : State) :
    KeepsOthers .init s (startImage l warn (clearOutcome s)) := by
  rw [startImage_eq]
  exact { KeepsOthers.refl .init s with
    inputs := { SameInputs.refl s with }
    l := fun h => absurd rfl h
    ostream := fun _ _ => .inr rfl }

theorem exec_init_keepsOthers (hx : exec .init s = .next t) : KeepsOthers .init s t := by
  rcases exec_init_eq_next hx with ⟨f, -, -, rfl⟩ | ⟨c, -, rfl⟩
  · exact keepsOthers_startImage _ _ s
  · exact keepsOthers_raiseError_clearOutcome .init c s

/-- RUN writes what INIT writes, and the program queue. -/
theorem exec_run_keepsOthers (hx : exec .run s = .next t) : KeepsOthers .run s t := by
  rcases exec_run_eq_next hx with ⟨u, -, hinit, rfl⟩ | ⟨c, -, rfl⟩
  · have h := exec_init_keepsOthers hinit
    exact {
      inputs := { h.inputs with }
      l := fun _ hr => absurd rfl hr
      res := fun _ _ _ => h.res nofun nofun nofun
      palette := fun _ => h.palette nofun
      pq := fun hr => absurd rfl hr
      ostream := fun _ _ => h.ostream nofun nofun }
  · exact keepsOthers_raiseError_clearOutcome .run c s

/-- PALB writes PAL and REMAP where it is answered at once. -/
theorem exec_palb_keepsOthers (hx : exec .palb s = .next t) : KeepsOthers .palb s t := by
  refine (exec_palb_ends hx).keepsOthers fun h => ?_
  rcases h with ⟨-, hbody⟩ | ⟨-, -, rfl⟩
  · obtain ⟨p, image, -, -, hanswer⟩ := palbBody_eq_ok.1 hbody
    obtain ⟨-, rfl⟩ := acceptAnswer_eq_ok.1 hanswer
    exact { KeepsOthers.refl _ s with inputs := { SameInputs.refl s with }, palette := fun h => absurd rfl h }
  · exact { KeepsOthers.refl _ s with inputs := { SameInputs.refl s with } }

theorem exec_rows_keepsOthers (hx : exec .rows s = .next t) : KeepsOthers .rows s t :=
  (exec_rows_ends hx).keepsOthers fun ⟨_, ht⟩ => ht ▸ { KeepsOthers.refl _ s with inputs := { SameInputs.refl s with } }

theorem exec_qpix_keepsOthers (hx : exec .qpix s = .next t) : KeepsOthers .qpix s t := by
  refine (exec_qpix_ends hx).keepsOthers fun ⟨_, _, _, e, d, smp, _, _, _, ht⟩ => ?_
  exact ht ▸ { KeepsOthers.refl _ s with inputs := { SameInputs.refl s with } }

/-- TRUNC, PALR and HDR write RES. -/
theorem keepsOthers_res (w : Word) (h : i = .palr ∨ i = .hdr ∨ ∃ v b, i = .trunc v b) : KeepsOthers i s { s with res := w } := by
  refine { KeepsOthers.refl i s with inputs := { SameInputs.refl s with }, res := fun htrunc hpalr hhdr => ?_ }
  rcases h with h | h | ⟨v, b, h⟩
  · exact absurd h hpalr
  · exact absurd h hhdr
  · exact absurd h (htrunc v b)

theorem exec_trunc_keepsOthers {v : BitVec 12} {b : BitVec 4} (hx : exec (.trunc v b) s = .next t) :
    KeepsOthers (.trunc v b) s t :=
  (exec_trunc_ends hx).keepsOthers fun ⟨_, _, ht⟩ => ht ▸ keepsOthers_res _ (.inr (.inr ⟨v, b, rfl⟩))

theorem exec_palr_keepsOthers (hx : exec .palr s = .next t) : KeepsOthers .palr s t :=
  (exec_palr_ends hx).keepsOthers fun ⟨_, _, _, _, _, _, ht⟩ => ht ▸ keepsOthers_res _ (.inl rfl)

theorem exec_hdr_keepsOthers (hx : exec .hdr s = .next t) : KeepsOthers .hdr s t :=
  (exec_hdr_ends hx).keepsOthers fun ⟨_, _, ht⟩ => ht ▸ keepsOthers_res _ (.inr (.inl rfl))

/-- The serializers write OSTREAM. -/
theorem keepsOthers_setArtifact (art : List Byte) (h : i = .serb ∨ i = .sert) : KeepsOthers i s (setArtifact s art) :=
  { KeepsOthers.refl i s with
    inputs := { SameInputs.refl s with }
    ostream := fun hserb hsert => absurd h (not_or.2 ⟨hserb, hsert⟩) }

theorem exec_serb_keepsOthers (hx : exec .serb s = .next t) : KeepsOthers .serb s t :=
  (exec_serb_ends hx).keepsOthers fun ⟨_, _, _, _, _, ht⟩ => ht ▸ keepsOthers_setArtifact _ (.inl rfl)

theorem exec_sert_keepsOthers (hx : exec .sert s = .next t) : KeepsOthers .sert s t :=
  (exec_sert_ends hx).keepsOthers fun ⟨_, _, _, ht⟩ => ht ▸ keepsOthers_setArtifact _ (.inr rfl)

theorem exec_subc_keepsOthers {k : BitVec 2} (hx : exec (.subc k) s = .next t) : KeepsOthers (.subc k) s t := by
  refine (exec_subc_ends hx).keepsOthers fun ⟨_, _, _, _, ht⟩ => ?_
  split at ht
  all_goals exact ht ▸ { KeepsOthers.refl _ s with inputs := { SameInputs.refl s with } }

/-- Settles O23: one lemma for each command. -/
theorem whoWritesWhat : Obligations.WhoWritesWhat := by
  intro i s t hx
  have h : KeepsOthers i s t := by
    rcases Instr.cases_encoder i with
      ⟨e, he, rfl⟩ | rfl | rfl | rfl | rfl | rfl | rfl | ⟨v, b, rfl⟩ | rfl | rfl | rfl | rfl | ⟨k, rfl⟩
    · exact exec_encoder_keepsOthers he hx
    · exact exec_raw_keepsOthers hx
    · exact exec_init_keepsOthers hx
    · exact exec_run_keepsOthers hx
    · exact exec_palb_keepsOthers hx
    · exact exec_rows_keepsOthers hx
    · exact exec_qpix_keepsOthers hx
    · exact exec_trunc_keepsOthers hx
    · exact exec_palr_keepsOthers hx
    · exact exec_hdr_keepsOthers hx
    · exact exec_serb_keepsOthers hx
    · exact exec_sert_keepsOthers hx
    · exact exec_subc_keepsOthers hx
  exact ⟨h.inputs, h.l, h.res, h.palette, h.pq, h.ostream⟩

end Sys2Proof.Machine
end

section
/-! PROOF. The program queue of RUN (44 R182), and a binary raw request from RUN to its artifact (45 R206): O7, O53. -/

namespace Sys2Proof.Machine

variable {s t : State}

/-! ### The sequencer's turns -/

/-- BUSY falls when PQ is empty and PALB does not wait (44 R182). -/
theorem dropBusy_eq_ite (s : State) :
    dropBusy s = if s.pq = [] ∧ s.waiting = false then { s with status := { s.status with busy := false } } else s := by
  simp only [dropBusy, Bool.and_eq_true, List.isEmpty_iff, Bool.not_eq_true']

/-- The step of a busy block that is not held runs the first command of PQ. -/
theorem step_of_program {w : Word} {queue : List Word} {i : Instr} (ha : s.agenda = []) (hb : s.status.busy = true)
    (hw : s.waiting = false) (hq : s.pq = w :: queue) (hd : decode w = .ok i) :
    step s = thenDropBusy (exec i { s with pq := queue }) := by
  have hturn : step s = sequencerTurn s := by simp only [step, nextMove, ha]
  rw [hturn, sequencerTurn_of_busy hb hw hq, issue_of_decode hd]

/-- Settles O7: the turn of a busy block, and `dropBusy_eq_ite`. -/
theorem programQueueRunsCommand : Obligations.ProgramQueueRunsCommand := by
  intro s w queue i ha hb hw hq hd
  rw [step_of_program ha hb hw hq hd]
  cases exec i { s with pq := queue } with
  | next t => exact congrArg Host.Outcome.next (dropBusy_eq_ite t)
  | fault f => rfl
  | refused r => rfl

/-! ### Runs -/

theorem run_succ_of_step (M : Host.Core) {s t : M.State} {k : Nat} (h : M.step s = .next t) : M.run (k + 1) s = M.run k t := by
  rw [Host.Core.run, h]

/-- Three steps in a row. -/
theorem core_run_three {u v : State} (h₁ : step s = .next t) (h₂ : step t = .next u) (h₃ : step u = .next v) :
    core.run 3 s = .next v :=
  (run_succ_of_step core h₁).trans ((run_succ_of_step core h₂).trans (run_succ_of_step core h₃))

/-- The block is executing a program: BUSY = 1, PALB does not wait, and no other agent moves. -/
structure Executing (s : State) (program : List Instr) : Prop where
  agenda : s.agenda = []
  busy : s.status.busy = true
  waiting : s.waiting = false
  pq : s.pq = program.map encode

/-- A command of the program that ends without an error entry, and is not the last one. -/
theorem Executing.step_next {i j : Instr} {rest : List Instr} (h : Executing s (i :: j :: rest))
    (hx : exec i { s with pq := (j :: rest).map encode } = .next t) (hq : t.pq = (j :: rest).map encode) :
    step s = .next t := by
  have hdrop : dropBusy t = t := by rw [dropBusy_eq_ite, if_neg (by simp [hq])]
  rw [step_of_program h.agenda h.busy h.waiting h.pq (decode_eq_ok_iff_encode.2 rfl), hx, thenDropBusy, hdrop]

/-- The last command of the program ends the run (44 R182). -/
theorem Executing.step_last {i : Instr} (h : Executing s [i]) (hx : exec i { s with pq := [] } = .next t) (hq : t.pq = [])
    (hw : t.waiting = false) : step s = .next { t with status := { t.status with busy := false } } := by
  rw [step_of_program h.agenda h.busy h.waiting h.pq (decode_eq_ok_iff_encode.2 rfl), List.map_nil, hx,
    thenDropBusy, dropBusy_eq_ite, if_pos ⟨hq, hw⟩]

/-! ### A buffer filled from address 0 on is complete -/

theorem Memory.readList_eq_some {m : Memory} {a : Nat} {bs : List Byte} (h : ∀ j < bs.length, Memory.read m (a + j) = bs[j]?) :
    Memory.readList m a bs.length = some bs := by
  induction bs generalizing a with
  | nil => rfl
  | cons b bs ih =>
    have hfirst : Memory.read m a = some b := h 0 (Nat.zero_lt_succ _)
    have hrest : Memory.readList m (a + 1) bs.length = some bs := ih fun j hj => by
      rw [Nat.add_right_comm, Nat.add_assoc, h (j + 1) (Nat.succ_lt_succ hj), List.getElem?_cons_succ]
    rw [List.length_cons, Memory.readList, hfirst, hrest]

theorem Memory.exactly_writeList (bs : List Byte) : Memory.exactly (Memory.writeList [] 0 bs) bs.length = some bs := by
  have hlen : Memory.len (Memory.writeList [] 0 bs) = bs.length := by
    have := (Memory.exact_zero.2 rfl).writeList bs
    rw [this.len, Nat.zero_add]
  rw [Memory.exactly, if_pos hlen]
  refine Memory.readList_eq_some fun j hj => ?_
  rw [Memory.read_writeList, if_pos (by omega), Nat.zero_add, Nat.sub_zero]

theorem fetchBytes_of_read {sp : Space} {m : Memory} {bs : List Byte} (h : ∀ j < bs.length, Memory.read m j = bs[j]?) :
    fetchBytes sp m 0 bs.length = .ok bs := by
  obtain ⟨bytes, hbytes⟩ := (Reads.fetchBytes (sp := sp) (m := m) (a := 0) (n := bs.length)).ends fun j hj => by
    rw [Nat.zero_add, h j hj, List.getElem?_eq_getElem hj]
    exact Option.some_ne_none _
  have heq : bytes = bs := List.ext_getElem? fun j => by
    by_cases hj : j < bs.length
    · rw [fetchBytes_getElem? hbytes hj, Nat.zero_add, h j hj]
    · rw [List.getElem?_eq_none (by rw [fetchBytes_length hbytes]; omega), List.getElem?_eq_none (by omega)]
  rw [hbytes, heq]

/-! ### The commands of a binary raw request -/

theorem encSel_of_isRaw {l : Latched} (h : isRaw l.fmt = true) (i : BitVec 2) (pass : Bool) : encSel l i pass = some .raw := by
  have hfmt : ∀ f, isRaw f = true → f = .raw ∨ f = .rawAlpha ∨ f = .rawChroma := by intro f; cases f <;> decide
  rcases hfmt l.fmt h with hf | hf | hf <;> rw [encSel, hf]

/-- ENC.RAW whose source is written (43 R161). -/
theorem exec_raw_eq {body : List Byte} (h : MayEncode .raw s) (hlen : body.length = s.l.rawlen.toNat)
    (hread : ∀ j < body.length, Memory.read s.rawin j = body[j]?) :
    exec .encRaw s = .next (complete (setCurObuf s (Memory.writeList (curObuf s) 0 body)) s.cur.sub) := by
  have hbody : encRawBody s = .ok (complete (setCurObuf s (Memory.writeList (curObuf s) 0 body)) s.cur.sub) := by
    rw [encRawBody, encoderChecks_of_mayEncode h rfl, bind_ok, ← hlen, fetchBytes_of_read hread, bind_ok, pure_eq_ok]
  exact (runCommand_ok encRawBody h.1).trans (by rw [hbody, settle_ok])

/-- SERB of a request with one sub-conversion and no palette, past its checks (45 R194, R195). -/
theorem exec_serb_eq {n : Nat} {body : List Byte} {c : BitVec 10} (he : s.status.err = false) (hi : s.status.initOk = true)
    (hone : subsOf s.l = [0]) (hd : s.status.subDone 0 = true) (hindexed : isIndexed s.l.fmt = false)
    (hlen : expLen s.l 0 = some n) (hbody : Memory.exactly (s.obuf.get 0) n = some body) (ho : s.l.out = true)
    (hc : formatCode s.params s.l.fmt = some c) :
    exec .serb s = .next (setArtifact s (le32 (headerWord c s.l.w s.l.h) ++ body)) := by
  have hcheck : serCheck s = .ok [body] := by
    have hcomplete : completeBody s 0 = .ok body := by rw [completeBody, hlen, Option.bind_some, hbody]
    refine serCheck_eq_ok.2 ⟨hi, fun i hsub => ?_, fun h => absurd (hindexed.symm.trans h) (by decide), ?_⟩
    · rw [hone, List.mem_singleton] at hsub
      rw [hsub, hd]
    · rw [hone, completeBodies, hcomplete]
      rfl
  have hall : serbBody s = .ok (setArtifact s (le32 (headerWord c s.l.w s.l.h) ++ body)) := by
    simp [serbBody, hcheck, ho, hdrOrIllegal, hdr, hc]
  exact (runCommand_ok serbBody he).trans (by rw [hall, settle_ok])

/-! ### The three steps of its program (44 R182) -/

/-- A binary raw conversion that has not failed: what its program reads and none of its commands changes. -/
structure RawConversion (s : State) (l : Latched) (c : BitVec 10) (body : List Byte) : Prop where
  err : s.status.err = false
  initOk : s.status.initOk = true
  sub : s.cur.sub = 0
  latched : s.l = l
  raw : isRaw l.fmt = true
  out : l.out = true
  code : formatCode s.params l.fmt = some c
  fits : dimsFit l = true
  length : body.length = l.rawlen.toNat

variable {l : Latched} {c : BitVec 10} {body : List Byte}

/-- ENC.RAW fills the empty buffer and completes the only sub-conversion. -/
theorem RawConversion.step_encRaw (h : RawConversion s l c body) (hx : Executing s [.encRaw, .hdr, .serb])
    (hd : s.status.subDone 0 = false) (hempty : s.obuf.get 0 = [])
    (hread : ∀ j < body.length, Memory.read s.rawin j = body[j]?) :
    ∃ t, step s = .next t ∧ RawConversion t l c body ∧ Executing t [.hdr, .serb] ∧ t.status.subDone 0 = true ∧
      t.obuf.get 0 = Memory.writeList [] 0 body := by
  have hcur : currentEncoder s = some .raw := encSel_of_isRaw (h.latched ▸ h.raw) _ _
  have hmay : MayEncode .raw s := ⟨h.err, h.initOk, h.sub ▸ hd, hcur⟩
  have hexec := exec_raw_eq (s := { s with pq := [Instr.hdr, .serb].map encode }) hmay (h.latched ▸ h.length) hread
  refine ⟨_, hx.step_next hexec rfl, { h with }, ⟨hx.agenda, hx.busy, hx.waiting, rfl⟩, ?_, ?_⟩
  · simp only [complete_status, h.sub, Status.subDone_complete_same]
  · simp only [complete_obuf, setCurObuf_obuf, curObuf, h.sub, hempty, Obufs.get_set_same]

/-- HDR writes RES alone. -/
theorem RawConversion.step_hdr (h : RawConversion s l c body) (hx : Executing s [.hdr, .serb]) :
    ∃ t, step s = .next t ∧ RawConversion t l c body ∧ Executing t [.serb] ∧ t.status.subDone 0 = s.status.subDone 0 ∧
      t.obuf = s.obuf := by
  have hexec := exec_hdr_eq (s := { s with pq := [Instr.serb].map encode }) h.err h.initOk (h.latched ▸ h.code)
    (h.latched ▸ h.fits)
  exact ⟨_, hx.step_next hexec rfl, { h with }, ⟨hx.agenda, hx.busy, hx.waiting, rfl⟩, rfl, rfl⟩

/-- SERB writes the artifact, and BUSY falls. -/
theorem RawConversion.step_serb (h : RawConversion s l c body) (hx : Executing s [.serb]) (hd : s.status.subDone 0 = true)
    (hbuf : s.obuf.get 0 = Memory.writeList [] 0 body) :
    ∃ t, step s = .next t ∧ t.status.busy = false ∧ t.status.done = true ∧ t.status.err = false ∧ t.pq = [] ∧
      t.outlen = outlenOf (body.length + 4) ∧ t.ostream = le32 (headerWord c l.w l.h) ++ body := by
  obtain ⟨herr, hinit, -, rfl, hraw, hout, hcode, -, hlength⟩ := h
  have hsel := encSel_of_isRaw hraw 0 false
  have hlen : expLen s.l 0 = some body.length := by rw [expLen, hsel, hlength]
  have hbody : Memory.exactly (s.obuf.get 0) body.length = some body := by rw [hbuf, Memory.exactly_writeList]
  have hexec := exec_serb_eq (s := { s with pq := [] }) herr hinit (if_neg (nSub_ne_four (.inr hout))) hd
    (encSel_family hsel).2 hlen hbody hout hcode
  refine ⟨_, hx.step_last hexec rfl hx.waiting, rfl, rfl, herr, rfl, ?_, rfl⟩
  show outlenOf (le32 _ ++ body).length = _
  rw [List.length_append, Nat.add_comm]
  rfl

/-! ### RUN to artifact (45 R206) -/

theorem prog_binary_raw (hraw : isRaw l.fmt = true) (ho : l.out = true) : prog l = [.encRaw, .hdr, .serb] := by
  rw [prog_raw hraw, serializerProg, if_pos ho]
  rfl

/-- RUN of a binary raw request whose decoder reports its dimensions. -/
theorem exec_run_raw {f : Fmt} (ha : s.agenda = []) (hw : s.waiting = false)
    (hf : fmtOfCode (cfgFmt s.cfg) = some f) (hraw : isRaw f = true) (ho : cfgOut s.cfg = true)
    (hc : formatCode s.params f = some c) (hd : instatDecFail s.instat = false)
    (hfit : (dimsW s.dims).toNat ≤ 2047 ∧ (dimsH s.dims).toNat ≤ 2047) (hlen : body.length = s.rawlen.toNat) :
    ∃ t, exec .run s = .next t ∧ RawConversion t (latch s.cfg f (dimsW s.dims) (dimsH s.dims) s.rawlen) c body ∧
      Executing t [.encRaw, .hdr, .serb] ∧ t.status.subDone 0 = false ∧ t.obuf.get 0 = [] ∧ t.rawin = s.rawin := by
  have hvalid : validate s.params s.cfg s.instat = .ok f :=
    validate_valid hf (fun _ hcomp => by cases f <;> cases hraw <;> cases hcomp) (fun _ => by simp [hc]) fun _ => hraw
  have hrun := exec_run_starts hvalid (chooseDims_decoded hd) fun _ => hfit
  have hnever : ¬ (isRaw f = false ∧ (dimsW s.dims).toNat * (dimsH s.dims).toNat = 0) := by simp [hraw]
  simp only [startImage_eq, latch, if_neg hnever] at hrun
  refine ⟨_, hrun, ?_, ⟨ha, rfl, hw, congrArg _ (prog_binary_raw hraw ho)⟩, BitVec.getLsbD_zero, rfl, rfl⟩
  exact {
    err := rfl, initOk := rfl, sub := rfl, latched := rfl, raw := hraw, out := ho, code := hc, length := hlen
    fits := by simp [dimsFit, latch, hfit] }

/-- Settles O53: RUN (`exec_run_raw`), then the three steps of its program. -/
theorem rawRunGivesSource : Obligations.RawRunGivesSource := by
  intro s f c body ha _ hw hf hraw ho hc hd hwidth hheight hlen hread hsize
  obtain ⟨t, hrun, hconv, hx, hopen, hempty, hrawin⟩ := exec_run_raw ha hw hf hraw ho hc hd ⟨hwidth, hheight⟩ hlen
  obtain ⟨t₁, hstep₁, hconv₁, hx₁, hdone₁, hbuf₁⟩ := hconv.step_encRaw hx hopen hempty (hrawin ▸ hread)
  obtain ⟨t₂, hstep₂, hconv₂, hx₂, hdone₂, hbuf₂⟩ := hconv₁.step_hdr hx₁
  obtain ⟨u, hstep₃, hbusy, hdone, herr, hpq, houtlen, hostream⟩ :=
    hconv₂.step_serb hx₂ (hdone₂.trans hdone₁) ((congrArg (Obufs.get · 0) hbuf₂).trans hbuf₁)
  have hword : headerWord c (dimsW s.dims) (dimsH s.dims) =
      BitVec.ofNat 32 (c.toNat + (dimsW s.dims).toNat * 2 ^ 10 + (dimsH s.dims).toNat * 2 ^ 21) := by
    rw [← headerWord_toNat c hwidth hheight, BitVec.ofNat_toNat, BitVec.setWidth_eq]
  refine ⟨t, u, hrun, core_run_three hstep₁ hstep₂ hstep₃, hbusy, hdone, herr, hpq, ?_, ?_⟩
  · rw [houtlen, outlenOf, if_pos hsize]
  · rw [hostream, ← hword]
    rfl

end Sys2Proof.Machine
end

section
/-! PROOF. The Serializer: what SerCheck finds in the output buffers, and what HDR, SERB and SERT then do (45 R191, R194 to R196,
R205): O14, O46, O47, O48, O52. -/

namespace Sys2Proof.Machine

variable {s t : State} {i : BitVec 2}

/-! ### The sub-conversions of a request (44 R174) -/

/-- The sub-conversions are numbered from 0 on. -/
theorem map_toNat_subsOf (l : Latched) : (subsOf l).map BitVec.toNat = List.range (nSub l.fmt l.out) := by
  unfold subsOf nSub
  split <;> rfl

theorem mem_subsOf {l : Latched} : i ∈ subsOf l ↔ i.toNat < nSub l.fmt l.out := by
  rw [← List.mem_range, ← map_toNat_subsOf, List.mem_map_of_injective fun _ _ => BitVec.eq_of_toNat_eq]

/-! ### One output buffer (45 R195) -/

theorem Memory.exactly_eq_some {m : Memory} {n : Nat} {bs : List Byte} :
    Memory.exactly m n = some bs ↔ Memory.len m = n ∧ bs.length = n ∧ ∀ j < n, Memory.read m j = bs[j]? := by
  constructor
  · intro h
    simp only [Memory.exactly, Option.ite_none_right_eq_some] at h
    obtain ⟨hlen, hread⟩ := h
    refine ⟨hlen, Memory.readList_length hread, fun j hj => ?_⟩
    rw [← Memory.readList_get hread hj, Nat.zero_add]
  · rintro ⟨hlen, rfl, hread⟩
    rw [Memory.exactly, if_pos hlen]
    exact Memory.readList_eq_some fun j hj => by rw [Nat.zero_add, hread j hj]

theorem Memory.exists_read_of_mem_keys {m : Memory} {p : Nat} (h : p ∈ m.map Prod.fst) : ∃ b, Memory.read m p = some b := by
  induction m with
  | nil => cases h
  | cons c m ih =>
    obtain ⟨k, v⟩ := c
    by_cases hp : p = k
    · exact ⟨v, by rw [Memory.read, if_pos hp]⟩
    · rw [Memory.read, if_neg hp]
      exact ih ((List.mem_cons.1 h).resolve_left hp)

/-- A memory that holds exactly the bytes 0 to n - 1 has them all written. -/
theorem Memory.Exact.exists_exactly {m : Memory} {n : Nat} (h : m.Exact n) : ∃ bs, Memory.exactly m n = some bs := by
  refine ⟨(List.range n).map fun j => (Memory.read m j).getD 0, Memory.exactly_eq_some.2 ⟨h.len, by simp, fun j hj => ?_⟩⟩
  obtain ⟨b, hb⟩ := Memory.exists_read_of_mem_keys (((Memory.exact_iff.1 h).2 j).2 hj)
  simp [hj, hb]

theorem completeBody_eq_ok {bs : List Byte} :
    completeBody s i = .ok bs ↔ expLen s.l i = some bs.length ∧ Memory.len (s.obuf.get i) = bs.length ∧
      ∀ j < bs.length, Memory.read (s.obuf.get i) j = bs[j]? := by
  have hfound : completeBody s i = .ok bs ↔ (expLen s.l i).bind (Memory.exactly (s.obuf.get i)) = some bs := by
    unfold completeBody
    split <;> simp [*]
  simp only [hfound, Option.bind_eq_some_iff, Memory.exactly_eq_some]
  constructor
  · rintro ⟨n, hn, hlen, rfl, hread⟩
    exact ⟨hn, hlen, hread⟩
  · rintro ⟨hn, hlen, hread⟩
    exact ⟨_, hn, hlen, rfl, hread⟩

theorem completeBody_eq_error {e : Stop} (h : completeBody s i = .error e) : e = .raise .ieIndexRange := by
  unfold completeBody at h
  split at h <;> cases h
  rfl

/-! ### All of them -/

theorem completeBodies_eq_ok {is : List (BitVec 2)} {bodies : List (List Byte)} :
    completeBodies s is = .ok bodies ↔ List.Forall₂ (fun i b => completeBody s i = .ok b) is bodies := by
  induction is generalizing bodies with
  | nil => simp [completeBodies, eq_comm]
  | cons i is ih =>
    simp only [completeBodies, bind_eq_ok, pure_eq_ok, Except.ok.injEq, ih, List.forall₂_cons_left_iff]
    constructor
    · rintro ⟨b, hb, r, hr, rfl⟩
      exact ⟨b, r, hb, hr, rfl⟩
    · rintro ⟨b, r, hb, hr, rfl⟩
      exact ⟨b, hb, r, hr, rfl⟩

theorem completeBodies_eq_error {is : List (BitVec 2)} {e : Stop} (h : completeBodies s is = .error e) :
    e = .raise .ieIndexRange := by
  induction is with
  | nil => cases h
  | cons i is ih =>
    simp only [completeBodies, bind_eq_error, pure_eq_ok, reduceCtorEq, and_false, exists_false, or_false] at h
    rcases h with h | ⟨b, -, h⟩
    · exact completeBody_eq_error h
    · exact ih h

theorem exists_completeBodies {is : List (BitVec 2)} (h : ∀ i ∈ is, ∃ b, completeBody s i = .ok b) :
    ∃ bodies, completeBodies s is = .ok bodies := by
  cases hall : completeBodies s is with
  | ok bodies => exact ⟨bodies, rfl⟩
  | error e =>
    exfalso
    induction is with
    | nil => cases hall
    | cons i is ih =>
      obtain ⟨b, hb⟩ := h i (List.mem_cons_self ..)
      simp only [completeBodies, hb, bind_ok, bind_eq_error, pure_eq_ok, reduceCtorEq, and_false, exists_false, or_false] at hall
      exact ih (fun j hj => h j (List.mem_cons_of_mem _ hj)) hall

/-- One buffer that is not complete is enough (45 R195). -/
theorem completeBodies_raises {is : List (BitVec 2)} (hi : i ∈ is) (hbad : ∀ b, completeBody s i ≠ .ok b) :
    completeBodies s is = .error (.raise .ieIndexRange) := by
  cases hall : completeBodies s is with
  | error e => rw [completeBodies_eq_error hall]
  | ok bodies =>
    obtain ⟨k, hk, hget⟩ := List.getElem_of_mem hi
    obtain ⟨hlen, hbody⟩ := List.forall₂_iff_get.1 (completeBodies_eq_ok.1 hall)
    have := hbody k hk (hlen ▸ hk)
    simp only [List.get_eq_getElem, hget] at this
    exact absurd this (hbad _)

/-! ### SerCheck (45 R195) -/

/-- SerCheck in turn looks at the output buffers. -/
theorem serCheck_in_turn (hi : s.status.initOk = true)
    (hd : ∀ i : BitVec 2, i.toNat < nSub s.l.fmt s.l.out → s.status.subDone i = true)
    (hv : isIndexed s.l.fmt = true → s.status.palv = true) : serCheck s = completeBodies s (subsOf s.l) := by
  have hall : (subsOf s.l).all (fun i => s.status.subDone i) = true := List.all_eq_true.2 fun i h => hd i (mem_subsOf.1 h)
  have hpal : (!isIndexed s.l.fmt || s.status.palv) = true := by
    cases hx : isIndexed s.l.fmt with
    | false => rfl
    | true => exact hv hx
  rw [serCheck, hi, hall, hpal]
  rfl

/-- SerCheck out of turn never looks at them. -/
theorem serCheck_out_of_turn (h : (∃ i : BitVec 2, i.toNat < nSub s.l.fmt s.l.out ∧ s.status.subDone i = false) ∨
    (isIndexed s.l.fmt = true ∧ s.status.palv = false)) : serCheck s = .error (.raise .cmdIllegal) := by
  refine bind_raises .require fun _ _ => bind_raises .require fun _ hall => bind_raises .require fun _ hpal => ?_
  rcases h with ⟨i, hsub, hopen⟩ | ⟨hx, hv⟩
  · have := List.all_eq_true.1 (require_eq_ok.1 hall) i (mem_subsOf.2 hsub)
    exact absurd (hopen.symm.trans this) (by decide)
  · simp [hx, hv] at hpal

/-- Where the output buffers are exact, that of a complete sub-conversion holds ExpLen bytes (43 R162). -/
theorem completeBody_of_complete (hinv : s.Inv) (hbuf : s.BufferInv) (hi : s.status.initOk = true)
    (hd : s.status.subDone i = true) (hv : isIndexed s.l.fmt = true → s.status.palv = true) :
    ∃ b, completeBody s i = .ok b := by
  have hexact : ∃ n, expLen s.l i = some n ∧ (s.obuf.get i).Exact n := by
    rcases Nat.lt_trichotomy i.toNat s.cur.sub.toNat with hlt | heq | hgt
    · exact (hbuf hi).before i hlt
    · obtain rfl : i = s.cur.sub := BitVec.eq_of_toNat_eq heq
      exact ⟨_, expLen_of_complete hinv hi hd hv, (hbuf hi).current⟩
    · exact absurd (hd.symm.trans ((hinv.converting hi).after i hgt)) (by decide)
  obtain ⟨n, hn, hmem⟩ := hexact
  obtain ⟨b, hb⟩ := hmem.exists_exactly
  exact ⟨b, by rw [completeBody, hn, Option.bind_some, hb]⟩

theorem OnlyIllegal.bind {α β : Type} {x : Except Stop α} {f : α → Except Stop β} (hx : OnlyIllegal x)
    (hf : ∀ a, x = .ok a → OnlyIllegal (f a)) : OnlyIllegal (x >>= f) := by
  cases x with
  | ok a => exact hf a rfl
  | error e => intro e' h; cases h; exact hx e rfl

theorem OnlyIllegal.ok {α : Type} (a : α) : OnlyIllegal (.ok a : Except Stop α) := nofun

theorem OnlyIllegal.hdrOrIllegal {p : Params} {l : Latched} : OnlyIllegal (hdrOrIllegal p l) := by
  intro e h
  unfold Machine.hdrOrIllegal at h
  split at h <;> cases h
  rfl

/-- Where the output buffers are exact, the last check of SerCheck never fails. -/
theorem OnlyIllegal.serCheck (hinv : s.Inv) (hbuf : s.BufferInv) : OnlyIllegal (serCheck s) := by
  refine .bind .require fun _ hi => .bind .require fun _ hall => .bind .require fun _ hpal => ?_
  have hv : isIndexed s.l.fmt = true → s.status.palv = true := fun hx => by simpa [hx] using hpal
  obtain ⟨bodies, hbodies⟩ := exists_completeBodies fun i hsub =>
    completeBody_of_complete hinv hbuf (require_eq_ok.1 hi) (List.all_eq_true.1 (require_eq_ok.1 hall) i hsub) hv
  rw [hbodies]
  exact .ok bodies

/-! ### SERB and SERT that raise -/

/-- Both serializers make SerCheck first. -/
theorem serializers_raise {c : ErrCode} (he : s.status.err = false) (h : serCheck s = .error (.raise c)) :
    EntersError .serb s c ∧ EntersError .sert s c :=
  ⟨runCommand_raises he (by rw [serbBody, h, bind_error]), runCommand_raises he (by rw [sertBody, h, bind_error])⟩

/-- HDR of a request the header cannot hold (45 R191). -/
theorem hdr_raises (he : s.status.err = false)
    (h : formatCode s.params s.l.fmt = none ∨ 2047 < s.l.w.toNat ∨ 2047 < s.l.h.toNat) : EntersError .hdr s .cmdIllegal := by
  refine runCommand_raises he (bind_raises .require fun _ _ => bind_raises .hdrOrIllegal fun w hw =>
    bind_raises .require fun _ hfit => ?_)
  simp only [require_eq_ok, dimsFit, Bool.and_eq_true, decide_eq_true_eq] at hfit
  rcases h with h | h
  · simp [hdrOrIllegal, hdr, h] at hw
  · omega

/-- Settles O14: the first two checks of SerCheck, then the output kind, which is looked at where the last check passes. -/
theorem serializersOutOfTurnRaise : Obligations.SerializersOutOfTurnRaise := by
  intro s he
  refine ⟨hdr_raises he, fun h => serializers_raise he (serCheck_out_of_turn h), fun hinv hbuf => ⟨fun ho => ?_, fun ho => ?_⟩⟩
  · exact runCommand_raises he (bind_raises (.serCheck hinv hbuf) fun _ _ => by rw [ho, require_false, bind_error])
  · exact runCommand_raises he (bind_raises (.serCheck hinv hbuf) fun _ _ => by rw [ho, Bool.not_true, require_false, bind_error])

/-- Settles O48: the bad buffer is not complete (`completeBody_eq_ok`), so the last check of SerCheck fails. -/
theorem badBufferRaises : Obligations.BadBufferRaises := by
  intro s n i he hi hd hv hsub hn hbad
  refine serializers_raise he ?_
  rw [serCheck_in_turn hi hd hv]
  refine completeBodies_raises (mem_subsOf.2 hsub) fun b hb => ?_
  obtain ⟨hexp, hlen, hread⟩ := completeBody_eq_ok.1 hb
  obtain rfl : n = b.length := Option.some.inj (hn.symm.trans hexp)
  rcases hbad with hbad | ⟨p, hp, hbad⟩
  · exact hbad hlen
  · rw [hread p hp, List.getElem?_eq_none_iff] at hbad
    omega

/-- A command that writes an artifact or raises CMD_ILLEGAL enters the error state with no other code. -/
theorem ecode_ne_ieIndexRange {b : State → Except Stop State} (hinv : s.Inv) (he : s.status.err = false)
    (hb : OnlyIllegal (b s)) (hart : ∀ t, b s = .ok t → ∃ art, t = setArtifact s art) (hx : runCommand s b = .next t) :
    t.status.ecode ≠ .ieIndexRange := by
  have hnone : s.status.ecode = .none := hinv.ecode.1 he
  rcases settle_eq_next.1 ((runCommand_ok b he).symm.trans hx) with hok | ⟨c, hc, rfl⟩
  · obtain ⟨art, rfl⟩ := hart t hok
    simp [hnone]
  · cases hb _ hc
    simp

theorem serbBody_artifact (h : serbBody s = .ok t) : ∃ art, t = setArtifact s art := by
  simp only [serbBody, bind_eq_ok, pure_eq_ok, Except.ok.injEq] at h
  obtain ⟨bodies, -, -, -, w, -, rfl⟩ := h
  exact ⟨_, rfl⟩

theorem sertBody_artifact (h : sertBody s = .ok t) : ∃ art, t = setArtifact s art := by
  simp only [sertBody, bind_eq_ok, pure_eq_ok, Except.ok.injEq] at h
  obtain ⟨bodies, -, -, -, rfl⟩ := h
  exact ⟨_, rfl⟩

/-- Settles O52: SerCheck raises nothing but CMD_ILLEGAL (`OnlyIllegal.serCheck`), nor do the checks after it. -/
theorem serializersNeverRaiseIndexRange : Obligations.SerializersNeverRaiseIndexRange := by
  rintro s t hinv hbuf he (hx | hx)
  · have hb : OnlyIllegal (serbBody s) :=
      .bind (.serCheck hinv hbuf) fun _ _ => .bind .require fun _ _ => .bind .hdrOrIllegal fun _ _ => .ok _
    exact ecode_ne_ieIndexRange hinv he hb (fun _ => serbBody_artifact) hx
  · have hb : OnlyIllegal (sertBody s) := .bind (.serCheck hinv hbuf) fun _ _ => .bind .require fun _ _ => .ok _
    exact ecode_ne_ieIndexRange hinv he hb (fun _ => sertBody_artifact) hx

/-! ### SERB and SERT that write the artifact (45 R194, R196, R205) -/

/-- The output buffers one by one: those of a request are complete when each holds the bytes listed for it. -/
theorem serCheck_of_bodies {bodies : List (List Byte)} (hi : s.status.initOk = true)
    (hnum : bodies.length = nSub s.l.fmt s.l.out)
    (hbody : ∀ i : BitVec 2, i.toNat < bodies.length →
      s.status.subDone i = true ∧ completeBody s i = .ok (bodies.getD i.toNat []))
    (hv : isIndexed s.l.fmt = true → s.status.palv = true) : serCheck s = .ok bodies := by
  rw [serCheck_in_turn hi (fun i hsub => (hbody i (hnum ▸ hsub)).1) hv, completeBodies_eq_ok, List.forall₂_iff_get]
  have hnumber := map_toNat_subsOf s.l
  have hlen : (subsOf s.l).length = bodies.length := by
    rw [hnum, ← List.length_range (n := nSub s.l.fmt s.l.out), ← hnumber, List.length_map]
  refine ⟨hlen, fun k hk hk' => ?_⟩
  have hget : (subsOf s.l)[k].toNat = k := by
    have := congrArg (·[k]?) hnumber
    simpa [hk, hnum ▸ hk'] using this
  have := (hbody (subsOf s.l)[k] (hget.symm ▸ hk')).2
  rwa [hget, List.getD_eq_getElem _ _ hk'] at this

theorem setArtifact_eq {art : List Byte} {n : Nat} (hlen : art.length = n) (hn : n < 2 ^ 32) : setArtifact s art =
    { s with ostream := art, outlen := BitVec.ofNat 32 n, status := { s.status with done := true } } := by
  rw [setArtifact, outlenOf, hlen, if_pos hn]

/-- The bytes of a word, low byte first (20 R67). -/
theorem le32_eq (w : Word) : le32 w =
    [BitVec.ofNat 8 w.toNat, BitVec.ofNat 8 (w.toNat / 2 ^ 8), BitVec.ofNat 8 (w.toNat / 2 ^ 16),
      BitVec.ofNat 8 (w.toNat / 2 ^ 24)] := by
  simp only [le32, BitVec.extractLsb', Nat.shiftRight_eq_div_pow, pow_zero, Nat.div_one]

/-- SERB past SerCheck (45 R194). -/
theorem exec_serb_of_serCheck {bodies : List (List Byte)} {c : BitVec 10} (he : s.status.err = false)
    (hcheck : serCheck s = .ok bodies) (ho : s.l.out = true) (hc : formatCode s.params s.l.fmt = some c) :
    exec .serb s = .next (setArtifact s (le32 (headerWord c s.l.w s.l.h) ++ bodies.headD [])) := by
  have hbody : serbBody s = .ok (setArtifact s (le32 (headerWord c s.l.w s.l.h) ++ bodies.headD [])) := by
    simp [serbBody, hcheck, ho, hdrOrIllegal, hdr, hc]
  exact (runCommand_ok serbBody he).trans (by rw [hbody, settle_ok])

/-- SERT past SerCheck (45 R196). -/
theorem exec_sert_of_serCheck {bodies : List (List Byte)} (he : s.status.err = false)
    (hcheck : serCheck s = .ok bodies) (ho : s.l.out = false) :
    exec .sert s = .next (setArtifact s (textArtifact s.params s.l bodies)) := by
  have hbody : sertBody s = .ok (setArtifact s (textArtifact s.params s.l bodies)) := by
    simp [sertBody, hcheck, ho]
  exact (runCommand_ok sertBody he).trans (by rw [hbody, settle_ok])

/-- Settles O46: SerCheck gives the only output buffer, and the header's bytes are those of its number (`headerWord_toNat`). -/
theorem serbWritesArtifact : Obligations.SerbWritesArtifact := by
  intro s c n body he hi ho hd hv hc hw hh hexp hlen hbody hread hsize
  subst hbody
  have hone : nSub s.l.fmt s.l.out = 1 := if_neg (by simp [ho])
  have hcheck : serCheck s = .ok [body] := by
    refine serCheck_of_bodies hi hone.symm (fun i hsub => ?_) hv
    obtain rfl : i = 0 := BitVec.eq_of_toNat_eq (Nat.lt_one_iff.1 hsub)
    exact ⟨hd, completeBody_eq_ok.2 ⟨hexp, hlen, hread⟩⟩
  have hart : (le32 (headerWord c s.l.w s.l.h) ++ body).length = body.length + 4 := by
    rw [List.length_append, Nat.add_comm]
    rfl
  rw [exec_serb_of_serCheck he hcheck ho hc, List.headD_cons, setArtifact_eq hart hsize, le32_eq, headerWord_toNat c hw hh]

/-- Settles O47: SerCheck gives the output buffers in order. -/
theorem sertWritesArtifact : Obligations.SertWritesArtifact := by
  intro s bodies he hi ho hnum hbody hv hsize
  have hcheck : serCheck s = .ok bodies := serCheck_of_bodies hi hnum
    (fun i hsub => (hbody i hsub).imp_right completeBody_eq_ok.2) hv
  rw [exec_sert_of_serCheck he hcheck ho, setArtifact_eq rfl hsize]

end Sys2Proof.Machine
end

section
/-! PROOF. The text artifact: the rows of a body (45 R201), and the characters of Text(L) (45 R197): O49, O50. -/

namespace Sys2Proof.Machine

/-! ### The rows of Lines(B) (45 R201) -/

section
variable {w : Nat}

/-- The row begun is filled first; the rest is cut anew. -/
theorem rowsOf_eq (hw : 0 < w) {room : Nat} {row : List Byte} (b : List Byte) (hroom : room + row.length = w) :
    rowsOf w room row b = if row ++ b = [] then [] else (row ++ b.take room) :: rowsOf w w [] (b.drop room) := by
  induction b generalizing room row with
  | nil => cases row <;> simp [rowsOf]
  | cons x b ih =>
    cases room with
    | zero =>
      obtain ⟨k, rfl⟩ : ∃ k, w = k + 1 := ⟨w - 1, by omega⟩
      simp [rowsOf]
    | succ room =>
      rw [rowsOf, ih (by rw [List.length_append, List.length_singleton]; omega)]
      simp

@[simp] theorem chunks_nil (w : Nat) : chunks w [] = [] := rfl

/-- The first row, and the rows of the rest. -/
theorem chunks_eq (hw : 0 < w) {b : List Byte} (hb : b ≠ []) : chunks w b = b.take w :: chunks w (b.drop w) := by
  have hrows : ∀ b, chunks w b = rowsOf w w [] b := fun b => by rw [chunks, max_eq_left (Nat.succ_le_of_lt hw)]
  rw [hrows, hrows, rowsOf_eq hw b (Nat.add_zero w), List.nil_append, if_neg hb, List.nil_append]

/-- Induction on the rows of a byte sequence. -/
theorem chunks_induction (hw : 0 < w) {motive : List Byte → Prop} (nil : motive [])
    (row : ∀ b, b ≠ [] → motive (b.drop w) → motive b) (b : List Byte) : motive b := by
  induction hlen : b.length using Nat.strongRecOn generalizing b with
  | ind n ih =>
    by_cases hb : b = []
    · exact hb ▸ nil
    · have hpos : 0 < b.length := List.length_pos_iff.2 hb
      exact row b hb (ih _ (by rw [List.length_drop]; omega) _ rfl)

theorem flatten_chunks (hw : 0 < w) (b : List Byte) : (chunks w b).flatten = b := by
  induction b using chunks_induction hw with
  | nil => rfl
  | row b hb ih => rw [chunks_eq hw hb, List.flatten_cons, ih, List.take_append_drop]

theorem length_chunks (hw : 0 < w) (b : List Byte) : (chunks w b).length = ceilDiv b.length w := by
  induction b using chunks_induction hw with
  | nil => exact (ceilDiv_zero hw).symm
  | row b hb ih =>
    have hpos : 0 < b.length := List.length_pos_iff.2 hb
    rw [chunks_eq hw hb, List.length_cons, ih, List.length_drop]
    unfold ceilDiv
    rcases Nat.lt_or_ge b.length w with hlt | hge
    · rw [Nat.sub_eq_zero_of_le hlt.le, Nat.div_eq_of_lt (by omega)]
      exact (Nat.div_eq_of_lt_le (by omega) (by omega)).symm
    · rw [← Nat.add_div_right _ hw]
      congr 1
      omega

/-- The j-th row is the w bytes from w * j on, or as many of them as there are. -/
theorem chunks_getElem? (hw : 0 < w) (b : List Byte) {j : Nat} {row : List Byte} (h : (chunks w b)[j]? = some row) :
    row = (b.drop (w * j)).take w ∧ w * j < b.length := by
  induction b using chunks_induction hw generalizing j with
  | nil => cases h
  | row b hb ih =>
    rw [chunks_eq hw hb] at h
    cases j with
    | zero => exact ⟨(Option.some.inj h).symm, List.length_pos_iff.2 hb⟩
    | succ j =>
      obtain ⟨hrow, hlt⟩ := ih h
      rw [List.drop_drop] at hrow
      rw [List.length_drop] at hlt
      rw [Nat.mul_succ]
      exact ⟨by rw [hrow, Nat.add_comm], by omega⟩

/-- Settles O50: each row is what `chunks_getElem?` says, and a row is full where the next one is not empty. -/
theorem bodyRowsAreFull : Obligations.BodyRowsAreFull := by
  intro w b hw
  refine ⟨flatten_chunks hw b, length_chunks hw b, fun row hrow => ?_, fun j row hj hrow => ?_⟩
  · obtain ⟨j, hget⟩ := List.getElem?_of_mem hrow
    obtain ⟨rfl, hlt⟩ := chunks_getElem? hw b hget
    rw [List.length_take, List.length_drop]
    omega
  · obtain ⟨rfl, -⟩ := chunks_getElem? hw b hrow
    obtain ⟨-, hnext⟩ := chunks_getElem? hw b (List.getElem?_eq_getElem hj)
    rw [Nat.mul_succ] at hnext
    rw [List.length_take, List.length_drop]
    omega

end

/-! ### The characters of the text (45 R197) -/

/-- Printable ASCII. -/
def isPrintable (b : Byte) : Bool := decide (0x20 ≤ b.toNat ∧ b.toNat ≤ 0x7E)

/-- Printable ASCII or LF: a character of the text. -/
def isTextChar (b : Byte) : Bool := isPrintable b || b == lf

/-- All characters of a byte sequence may stand in the text. -/
def isText (bs : List Byte) : Bool := bs.all isTextChar

theorem isText_of_printable {bs : List Byte} (h : ∀ b ∈ bs, 0x20 ≤ b.toNat ∧ b.toNat ≤ 0x7E) : isText bs = true := by
  refine List.all_eq_true.2 fun b hb => ?_
  rw [isTextChar, isPrintable, decide_eq_true (h b hb), Bool.true_or]

theorem isText_append (a b : List Byte) : isText (a ++ b) = (isText a && isText b) := List.all_append

theorem isText_line (a : List Byte) : isText (line a) = isText a := by
  rw [line, isText_append]
  exact Bool.and_true _

theorem isText_flatten {rows : List (List Byte)} (h : ∀ row ∈ rows, isText row = true) : isText rows.flatten = true := by
  rw [isText, List.all_flatten, List.all_eq_true]
  exact h

/-! The parts of a line that are not fixed text. -/

/-- Upper case takes printable characters to printable ones (45 R198). -/
theorem upper_printable {b : Byte} (h : 0x20 ≤ b.toNat ∧ b.toNat ≤ 0x7E) :
    0x20 ≤ (upper b).toNat ∧ (upper b).toNat ≤ 0x7E := by
  unfold upper
  split
  · rw [BitVec.toNat_sub_of_le (by rw [BitVec.le_def]; simp; omega)]
    simp
    omega
  · exact h

theorem isText_decimal (n : Nat) : isText (decimal n) = true := by
  refine isText_of_printable fun b hb => ?_
  obtain ⟨c, hc, rfl⟩ := List.mem_map.1 hb
  obtain ⟨hlow, hhigh⟩ : 0x30 ≤ c.toNat ∧ c.toNat ≤ 0x39 :=
    Char.isDigit_iff_toNat.1 (Nat.isDigit_of_mem_toDigits (by decide) (by decide) hc)
  rw [BitVec.toNat_ofNat]
  omega

theorem isTextChar_hexDigit {n : Nat} (h : n < 16) : isTextChar (hexDigit n) = true := by
  interval_cases n <;> decide

theorem isText_literal (b : Byte) : isText (literal b) = true := by
  have hb : b.toNat < 256 := b.isLt
  have hhigh : isTextChar (hexDigit (b.toNat / 16)) = true := isTextChar_hexDigit (by omega)
  have hlow : isTextChar (hexDigit (b.toNat % 16)) = true := isTextChar_hexDigit (by omega)
  have hstart : isText (ascii "0x") = true := by decide
  rw [literal, isText_append, hstart, Bool.true_and]
  simp only [isText, List.all_cons, hhigh, hlow]
  decide

theorem isText_intersperse {sep : List Byte} (hsep : isText sep = true) {rows : List (List Byte)}
    (h : ∀ row ∈ rows, isText row = true) : isText (rows.intersperse sep).flatten = true := by
  induction rows with
  | nil => rfl
  | cons row rows ih =>
    obtain ⟨hrow, hrest⟩ := List.forall_mem_cons.1 h
    cases rows with
    | nil => exact isText_flatten h
    | cons next rows =>
      calc isText ((row :: next :: rows).intersperse sep).flatten
          = (isText row && (isText sep && isText ((next :: rows).intersperse sep).flatten)) := by
            rw [← isText_append, ← isText_append]
            rfl
        _ = true := by rw [hrow, hsep, ih hrest]; rfl

/-! ### The parts of Text(L) -/

theorem isText_bodyLine (chunk : List Byte) : isText (bodyLine chunk) = true := by
  have hsep : isText (ascii " ") = true := by decide
  have hliterals : isText ((chunk.map literal).intersperse (ascii " ")).flatten = true :=
    isText_intersperse hsep fun row hrow => by
      obtain ⟨b, -, rfl⟩ := List.mem_map.1 hrow
      exact isText_literal b
  rw [bodyLine, isText_line, isText_append, hliterals, Bool.and_true]
  decide

theorem isText_bodyLines (p : Params) (b : List Byte) : isText (bodyLines p b) = true := by
  rw [bodyLines, List.flatMap]
  refine isText_flatten fun row hrow => ?_
  obtain ⟨chunk, -, rfl⟩ := List.mem_map.1 hrow
  exact isText_bodyLine chunk

theorem isText_guardLine (i : Nat) : isText (guardLine i) = true := by
  unfold guardLine
  split <;> decide

theorem isText_guardedBodies (p : Params) (i : Nat) (bodies : List (List Byte)) : isText (guardedBodies p i bodies) = true := by
  induction bodies generalizing i with
  | nil => rfl
  | cons b bodies ih =>
    have hend : isText (lineOf "#endif") = true := by decide
    simp only [guardedBodies, isText_append, isText_guardLine, isText_bodyLines, hend, ih, Bool.and_self]

theorem isText_textBody (p : Params) (bodies : List (List Byte)) : isText (textBody p bodies) = true := by
  unfold textBody
  split
  · exact isText_bodyLines p _
  · exact isText_guardedBodies p 0 _

section
variable {p : Params} (hname : ∀ b ∈ p.name, 0x20 ≤ b.toNat ∧ b.toNat ≤ 0x7E)
include hname

theorem isText_nameUpper : isText (nameUpper p) = true := by
  refine isText_of_printable fun b hb => ?_
  obtain ⟨c, hc, rfl⟩ := List.mem_map.1 hb
  exact upper_printable (hname c hc)

theorem isText_preamble : isText (preamble p) = true := by
  unfold preamble
  simp only [lineOf, isText_append, isText_line, isText_nameUpper hname]
  decide

theorem isText_declaration : isText (declaration p) = true := by
  simp only [declaration, isText_append, isText_line, isText_nameUpper hname, isText_of_printable hname]
  decide

end

theorem isText_cfName {p : Params} (hcf : ∀ k n, (k, n) ∈ p.cfNames → ∀ b ∈ n, 0x20 ≤ b.toNat ∧ b.toNat ≤ 0x7E) (f : Fmt)
    (alpha : Bool) : isText (cfName p f alpha) = true := by
  unfold cfName
  split
  case h_1 n hn =>
    obtain ⟨before, after, hentry, -⟩ := List.lookup_eq_some_iff.1 hn
    exact isText_of_printable (hcf (f, alpha) n (by simp [hentry]))
  case h_2 => cases f <;> cases alpha <;> decide

theorem isText_dataSize (l : Latched) (len : Nat) : isText (dataSize l len) = true := by
  unfold dataSize
  split <;> simp only [isText_append, isText_decimal] <;> decide

theorem isText_descriptor {p : Params} {l : Latched} (hname : isText p.name = true)
    (hcf : isText (cfName p l.fmt l.alpha) = true) (len : Nat) : isText (descriptor p l len) = true := by
  simp only [descriptor, lineOf, isText_append, isText_line, hname, hcf, isText_decimal, isText_dataSize]
  decide

/-- The descriptor ends with a line, so the text does (45 R203). -/
theorem getLast?_textArtifact (p : Params) (l : Latched) (bodies : List (List Byte)) :
    (textArtifact p l bodies).getLast? = some lf := by
  simp only [textArtifact, descriptor, line, ← List.append_assoc, List.getLast?_concat]

/-- Settles O49: one lemma for each part of Text(L). -/
theorem textIsPrintableAscii : Obligations.TextIsPrintableAscii := by
  intro p l bodies printable hname hcf
  have hdesc := isText_descriptor (l := l) (isText_of_printable hname) (isText_cfName hcf l.fmt l.alpha) (bodies.headD []).length
  have hall : isText (textArtifact p l bodies) = true := by
    simp only [textArtifact, lineOf, isText_append, isText_line, isText_preamble hname, isText_declaration hname,
      isText_textBody, hdesc]
    decide
  refine ⟨fun b hb => ?_, getLast?_textArtifact p l bodies⟩
  simpa [isTextChar, isPrintable, lf] using List.all_eq_true.1 hall b hb

end Sys2Proof.Machine
end

section
/-! PROOF. The turns that leave the block alone, the reset event, and the error state: what has no effect in it, what leaves it, and
the commands that raise while INIT_OK = 0 (42 R128; 60 R217, R218, R227, R229; 70 R230): O8, O9, O10, O11. -/

namespace Sys2Proof.Machine

variable {s t : State} {w : Word}

/-! ### Turns that change nothing (60 R227, 42 R128, 70 R230) -/

/-- With no move outstanding, the step is the sequencer's turn (log 1). -/
theorem step_of_no_agenda (ha : s.agenda = []) : step s = sequencerTurn s := by simp only [step, nextMove, ha]

/-- The sequencer idles while BUSY = 0 and is held while PALB waits. -/
theorem sequencerTurn_of_idle_or_held (h : s.status.busy = false ∨ s.waiting = true) : sequencerTurn s = .next s := by
  have hstop : (s.waiting || !s.status.busy) = true := by
    rcases h with hbusy | hwait
    · rw [hbusy, Bool.not_false, Bool.or_true]
    · rw [hwait, Bool.true_or]
  rw [sequencerTurn, if_pos hstop]

/-- An answer nobody waits for is ignored. -/
theorem answerTurn_of_not_waiting (hw : s.waiting = false) : answerTurn s = .next s := by simp [answerTurn, hw]

/-- Settles O8: the sequencer's turn, and the reset event as the move at the head of the agenda. -/
theorem idleHeldAndReset : Obligations.IdleHeldAndReset := by
  refine fun s => ⟨fun ha h => ?_, fun rest ha => ?_⟩
  · rw [step_of_no_agenda ha, sequencerTurn_of_idle_or_held h]
  · rw [step_of_agenda ha]
    rfl

/-! ### The error state (60 R217, R218) -/

/-- OP as a number (30 R80). -/
theorem toNat_opField (w : Word) : (opField w).toNat = w.toNat % 256 := by
  rw [opField, toNat_extractLsb'_eq, pow_zero, Nat.div_one]
  rfl

/-- The words that are not skipped while ERR = 1, by the number of their opcode. -/
theorem leavesError_eq_false_iff : leavesError w = false ↔ w.toNat % 256 ≠ 1 ∧ w.toNat % 256 ≠ 2 := by
  rw [← toNat_opField, leavesError, Bool.or_eq_false_iff, decide_eq_false_iff_not, decide_eq_false_iff_not, BitVec.toNat_eq,
    BitVec.toNat_eq]
  rfl

/-- While ERR = 1 a word with another opcode than those of INIT and RUN is skipped before it is decoded. -/
theorem issue_skipped (he : s.status.err = true) (hw : leavesError w = false) : issue w s = .next s := by
  rw [issue, he, hw]
  rfl

/-- Settles O9: a command by `exec_err`, a raw word by `issue_skipped`. -/
theorem errorStateIgnoresCommands : Obligations.ErrorStateIgnoresCommands := by
  refine ⟨fun s i he hinit hrun => exec_err he hinit hrun, fun s w rest ha hb he hinit hrun => ?_⟩
  rw [step_of_command ha hb]
  exact issue_skipped he (leavesError_eq_false_iff.2 ⟨hinit, hrun⟩)

/-- The words that end ERR = 1: an illegal word is skipped or raises again, a legal one of another command has no effect. -/
theorem decode_of_issue_leaves_error (he : s.status.err = true) (hx : issue w s = .next t) (ht : t.status.err = false) :
    decode w = .ok .init ∨ decode w = .ok .run := by
  cases hd : decode w with
  | error d =>
    rw [issue, hd] at hx
    split at hx <;> cases hx
    · exact absurd (he.symm.trans ht) (by decide)
    · cases ht
  | ok i =>
    rw [issue_of_decode hd] at hx
    by_cases hinit : i = .init
    · exact .inl (congrArg _ hinit)
    by_cases hrun : i = .run
    · exact .inr (congrArg _ hrun)
    rw [exec_err he hinit hrun] at hx
    cases hx
    exact absurd (he.symm.trans ht) (by decide)

/-- A register access that is made is 32 bits wide (20 R74). -/
theorem width_of_registerAccess {o n : Nat} {k : Host.Outcome State Fault Refusal} (h : registerAccess o n k = .next t) :
    n = 4 := by
  unfold registerAccess at h
  split at h
  · cases h
  · omega

theorem storeRegister_status (s : State) (o : Nat) (v : Word) : (storeRegister s o v).status = s.status := by
  unfold storeRegister
  split <;> rfl

/-- No access of the host touches STATUS but a command word written to CMD (10 R21, R31; 20 R75). -/
theorem hostTurn_status {a : HostAccess} (hx : hostTurn s a = .next t) :
    t.status = s.status ∨ ∃ w, a = .writeReg 0x18 4 w ∧ issue w s = .next t := by
  cases a with
  | readReg o n => cases registerAccess_eq_next hx; exact .inl rfl
  | writeReg o n v =>
    obtain rfl : n = 4 := width_of_registerAccess hx
    have hx := registerAccess_eq_next hx
    split at hx
    · cases hx
    · split at hx
      · rename_i ho; exact .inr ⟨v, by rw [ho], hx⟩
      · cases hx; exact .inl (storeRegister_status s o v)
  | writeRaster a v =>
    simp only [hostTurn, writeRaster] at hx
    split at hx <;> cases hx
    exact .inl rfl
  | writeRawin a v =>
    simp only [hostTurn, writeRawin] at hx
    split at hx <;> cases hx
    exact .inl rfl
  | readOstream a =>
    simp only [hostTurn, readArtifact] at hx
    split at hx
    · split at hx <;> cases hx
      exact .inl rfl
    · cases hx

/-- While BUSY = 0 and PALB does not wait, only the reset event and a command word written to CMD touch STATUS. -/
theorem takeMove_status {m : Move} (hb : s.status.busy = false) (hw : s.waiting = false) (hx : takeMove m s = .next t) :
    t.status = s.status ∨ m = .reset ∨ ∃ w, m = .host (.writeReg 0x18 4 w) ∧ issue w s = .next t := by
  cases m with
  | sequencer => cases (sequencerTurn_of_idle_or_held (.inl hb)).symm.trans hx; exact .inl rfl
  | host a => exact (hostTurn_status hx).imp_right fun ⟨w, ha, hi⟩ => .inr ⟨w, congrArg _ ha, hi⟩
  | collabDefer b => cases hx; exact .inl rfl
  | collabAnswer => cases (answerTurn_of_not_waiting hw).symm.trans hx; exact .inl rfl
  | reset => exact .inr (.inl rfl)

/-- Settles O10: the moves that touch STATUS (`takeMove_status`), and of the command words those that end ERR = 1
(`decode_of_issue_leaves_error`). -/
theorem onlyInitRunResetLeaveError : Obligations.OnlyInitRunResetLeaveError := by
  intro s t he hb hw hx ht
  have hchanged : t.status ≠ s.status := fun h => absurd (he.symm.trans (h ▸ ht)) (by decide)
  cases ha : s.agenda with
  | nil =>
    rw [step_of_no_agenda ha, sequencerTurn_of_idle_or_held (.inl hb)] at hx
    cases hx
    exact absurd rfl hchanged
  | cons m rest =>
    rw [step_of_agenda ha] at hx
    rcases takeMove_status (s := { s with agenda := rest }) hb hw hx with h | rfl | ⟨w, rfl, hi⟩
    · exact absurd h hchanged
    · exact .inl ⟨rest, rfl⟩
    · exact .inr ⟨w, rest, rfl, decode_of_issue_leaves_error (s := { s with agenda := rest }) he hi ht⟩

/-! ### Commands while INIT_OK = 0 (60 R229) -/

/-- A check that fails ends the pseudocode it begins. -/
theorem require_bind_raises {α : Type} {b : Bool} {c : ErrCode} (h : b = false) (f : Unit → Except Stop α) :
    (require b c >>= f) = .error (.raise c) := by rw [h, require_false, bind_error]

theorem encoderChecks_no_init (hi : s.status.initOk = false) (e : Encoder) :
    encoderChecks e s = .error (.raise .cmdIllegal) := require_bind_raises (by rw [hi, Bool.false_and]) _

theorem palb_no_init (he : s.status.err = false) (hi : s.status.initOk = false) : EntersError .palb s .cmdIllegal := by
  have hchecks : palbChecks s = .error (.raise .cmdIllegal) := require_bind_raises hi _
  refine runCommand_raises he ?_
  split
  · rw [palbHold, hchecks, bind_error]
  · rw [palbBody, hchecks, bind_error]

/-- Settles O11: INIT_OK is in the first check of every other command. -/
theorem noInitNoCommand : Obligations.NoInitNoCommand := by
  intro s i he hi hinit hrun htrunc
  obtain ⟨hserb, hsert⟩ := serializers_raise he (require_bind_raises hi _)
  rcases Instr.cases_encoder i with
    ⟨e, -, rfl⟩ | rfl | rfl | rfl | rfl | rfl | rfl | ⟨v, b, rfl⟩ | rfl | rfl | rfl | rfl | ⟨k, rfl⟩
  · exact exec_encoder_raises he (encoderChecks_no_init hi e)
  · exact exec_encoder_raises (e := .raw) he (encoderChecks_no_init hi .raw)
  · exact absurd rfl hinit
  · exact absurd rfl hrun
  · exact palb_no_init he hi
  · exact runCommand_raises he (require_bind_raises hi _)
  · exact runCommand_raises he (require_bind_raises (by rw [hi, Bool.false_and]) _)
  · exact absurd rfl (htrunc v b)
  · exact runCommand_raises he (require_bind_raises hi _)
  · exact runCommand_raises he (require_bind_raises hi _)
  · exact hserb
  · exact hsert
  · exact runCommand_raises he (require_bind_raises (by rw [hi, Bool.false_and]) _)

end Sys2Proof.Machine
end

section
/-! PROOF. The host's accesses that the model refuses by name (70 R238, R240; 20 R66, R74): O57. -/

namespace Sys2Proof.Machine

variable {s : State} {a : Nat} {b : Byte}

/-- While BUSY = 1 the host may write no register (70 R238). -/
theorem writeRegister_refused {k : Nat} (hk : k < 12) (hb : s.status.busy = true) (v : Word) :
    writeRegister s (4 * k) 4 v = .refused .hostDuty := by
  have hreg : isRegister (4 * k) = true := decide_eq_true (by omega)
  rw [writeRegister, registerAccess_aligned (by omega), hb, hreg]
  rfl

theorem writeRaster_of_converting (h : converting s.status = true) : writeRaster s a b = .refused .hostDuty := if_pos h

theorem writeRawin_of_converting (h : converting s.status = true) : writeRawin s a b = .refused .hostDuty := if_pos h

/-- A register access of another width or alignment is not made (20 R74). -/
theorem registerAccess_misshapen {o n : Nat} (h : n ≠ 4 ∨ o % 4 ≠ 0) (k : Host.Outcome State Fault Refusal) :
    registerAccess o n k = .refused .accessShape := if_pos h

/-- A byte outside the artifact is not readable (20 R66, 70 R240). -/
theorem readArtifact_refused (h : s.status.done = false ∨ s.outlen.toNat ≤ a) : readArtifact s a = .refused .artifactRead := by
  refine if_neg fun hin => ?_
  obtain ⟨hdone, ha⟩ := Bool.and_eq_true_iff.1 hin
  rcases h with h | h
  · exact absurd (hdone.symm.trans h) (by decide)
  · exact absurd (of_decide_eq_true ha) (Nat.not_lt.2 h)

/-- Settles O57: each step is the access at the head of the agenda, which the rules above refuse. -/
theorem hostDutiesRefused : Obligations.HostDutiesRefused := by
  intro s rest
  refine ⟨fun k v hk hb ha => ?_, fun a b h ha => ?_, fun o n v hshape ha => ?_, fun a h ha => ?_⟩
  · rw [step_of_agenda ha]
    exact writeRegister_refused (s := { s with agenda := rest }) hk hb v
  · have hconv : converting s.status = true := by simpa [converting] using h
    rcases ha with ha | ha <;> rw [step_of_agenda ha]
    · exact writeRaster_of_converting (s := { s with agenda := rest }) hconv
    · exact writeRawin_of_converting (s := { s with agenda := rest }) hconv
  · rcases ha with ha | ha <;> rw [step_of_agenda ha] <;> exact registerAccess_misshapen hshape _
  · rw [step_of_agenda ha]
    exact readArtifact_refused (s := { s with agenda := rest }) h

end Sys2Proof.Machine
end

section
/-! PROOF. What an earlier conversion leaves behind stays without effect (44 R184, 70 R232): O21, O22. Two computations are
compared check by check (`Agree`), and two states that differ in RES, PAL and REMAP alone are written as one state and the other
with its leftovers replaced (`State.withLeftovers`). -/

namespace Sys2Proof.Machine

variable {s t : State}

/-! ### INIT takes nothing from the conversion before (44 R170) -/

/-- Settles O21: the checks of INIT read the inputs alone, so they pass in both states, and `startImage_eq` names all that INIT
writes. -/
theorem initForgetsPrevious : Obligations.InitForgetsPrevious := by
  intro s s' t t' hcfg hdims hodims hinstat hrawlen hparams hx hx' herr
  rcases exec_init_eq_next hx with ⟨f, hv, hfit, rfl⟩ | ⟨c, -, rfl⟩
  · rw [exec_init_starts (s := s') (f := f) (by rw [hparams, hcfg, hinstat, hv]) rfl
      (by rwa [hcfg, hdims, hodims, hinstat]), hcfg, hdims, hodims, hinstat, hrawlen] at hx'
    cases hx'
    rw [startImage_eq, startImage_eq]
    exact ⟨rfl, rfl, rfl, rfl, rfl, rfl, rfl, rfl, rfl, rfl⟩
  · exact absurd (show true = false from herr) (by decide)

/-! ### Computations that agree -/

/-- Two computations stop alike, or both reach their ends with results that `R` relates. -/
inductive Agree {α β : Type} (R : α → β → Prop) : Except Stop α → Except Stop β → Prop where
  | ok {a : α} {b : β} (h : R a b) : Agree R (.ok a) (.ok b)
  | error (e : Stop) : Agree R (.error e) (.error e)

section
variable {α β α' β' : Type} {Q : α → β → Prop} {R : α' → β' → Prop}

theorem Agree.bind {x : Except Stop α} {y : Except Stop β} {f : α → Except Stop α'} {g : β → Except Stop β'}
    (hxy : Agree Q x y) (hfg : ∀ a b, Q a b → Agree R (f a) (g b)) : Agree R (x >>= f) (y >>= g) := by
  cases hxy with
  | ok h => exact hfg _ _ h
  | error e => exact .error e

/-- Two computations that begin with the same check or read. -/
theorem Agree.bind_same {x y : Except Stop α} {f : α → Except Stop α'} {g : α → Except Stop β'} (hxy : y = x)
    (hfg : ∀ a, x = .ok a → Agree R (f a) (g a)) : Agree R (x >>= f) (y >>= g) := by
  subst hxy
  cases y with
  | ok a => exact hfg a rfl
  | error e => exact .error e

end

/-! ### The leftovers -/

/-- The state with RES, PAL and REMAP replaced. -/
def State.withLeftovers (s : State) (r : Word) (p : List Color) (m : Memory) : State := { s with res := r, pal := p, remap := m }

theorem SameButLeftovers.eq_withLeftovers (h : SameButLeftovers s t) : t = s.withLeftovers t.res t.pal t.remap := h.rest

section
variable {r r' : Word} {p : List Color} {m : Memory}

/-- Where PALV = 0 nothing is asked of the leftovers. -/
theorem sameButLeftovers_of_palv (hv : s.status.palv = false) : SameButLeftovers s (s.withLeftovers r p m) :=
  ⟨rfl, fun h => absurd (h.symm.trans hv) (by decide), fun h => absurd (h.symm.trans hv) (by decide)⟩

/-- What leaves PALV, L, PAL and REMAP as they are leaves the leftovers as alike as they were, with any two results in RES. -/
theorem SameButLeftovers.carry (h : SameButLeftovers s (s.withLeftovers r p m)) (hv : t.status.palv = s.status.palv)
    (hl : t.l = s.l) (hpal : t.pal = s.pal) (hremap : t.remap = s.remap) : SameButLeftovers t (t.withLeftovers r' p m) where
  rest := rfl
  pal hp := (h.pal (hv ▸ hp)).trans hpal.symm
  remap hp q hq := by
    rw [hl] at hq
    exact (h.remap (hv ▸ hp) q hq).trans (by rw [hremap])

theorem SameButLeftovers.raiseError (h : SameButLeftovers s (s.withLeftovers r p m)) (c : ErrCode) :
    SameButLeftovers (raiseError c s) (raiseError c (s.withLeftovers r p m)) := h.carry rfl rfl rfl rfl

/-! ### How commands end -/

/-- The second outcome is the first but for the leftovers, as O22 says it. -/
def SameOutcome (o o' : Host.Outcome State Fault Refusal) : Prop :=
  match o with
  | .next s' => ∃ t', o' = .next t' ∧ SameButLeftovers s' t'
  | .fault f => o' = .fault f
  | .refused r => o' = .refused r

theorem Agree.settle {x y : Except Stop State} (hxy : Agree SameButLeftovers x y)
    (h : SameButLeftovers s (s.withLeftovers r p m)) :
    SameOutcome (settle s x) (settle (s.withLeftovers r p m) y) := by
  cases hxy with
  | ok h => exact ⟨_, rfl, h⟩
  | error e =>
    cases e with
    | raise c => exact ⟨_, rfl, h.raiseError c⟩
    | fault f => exact rfl

/-- A command other than INIT and RUN: its pseudocode counts while ERR = 0. -/
theorem runCommand_sameOutcome {b : State → Except Stop State} (h : SameButLeftovers s (s.withLeftovers r p m))
    (hb : Agree SameButLeftovers (b s) (b (s.withLeftovers r p m))) :
    SameOutcome (runCommand s b) (runCommand (s.withLeftovers r p m) b) := by
  cases he : s.status.err with
  | true =>
    rw [runCommand_err b he, runCommand_err (s := s.withLeftovers r p m) b he]
    exact ⟨_, rfl, h⟩
  | false =>
    rw [runCommand_ok b he, runCommand_ok (s := s.withLeftovers r p m) b he]
    exact hb.settle h

/-! ### The pixel encoders (43 R140) -/

theorem advance_withLeftovers (s : State) : advance (s.withLeftovers r p m) = (advance s).withLeftovers r p m := by
  simp only [advance, apply_ite (State.withLeftovers · r p m)]
  rfl

theorem afterPixel_withLeftovers (e : Encoder) (s : State) :
    afterPixel e (s.withLeftovers r p m) = (afterPixel e s).withLeftovers r p m := by
  rw [afterPixel_eq_advance, afterPixel_eq_advance, ← advance_withLeftovers]
  rfl

/-- The four bytes of a pixel are those of another memory that agrees on them. -/
theorem fetchColor_congr {sp : Space} {m m' : Memory} {a : Nat} (h : ∀ j < 4, Memory.read m' (a + j) = Memory.read m (a + j)) :
    fetchColor sp m' a = fetchColor sp m a := by
  have h0 : Memory.read m' a = Memory.read m a := h 0 (by decide)
  simp only [fetchColor, fetchByte, h0, h 1 (by decide), h 2 (by decide), h 3 (by decide)]

/-- The bytes of a pixel of the image lie within the image (20 R61, R63). -/
theorem pixelAddr_lt {l : Latched} {x y j : Nat} (hx : x < l.w.toNat) (hy : y < l.h.toNat) (hj : j < 4) :
    pixelAddr l x y + j < 4 * (l.w.toNat * l.h.toNat) := by
  have hrow : l.w.toNat * (y + 1) ≤ l.w.toNat * l.h.toNat := Nat.mul_le_mul_left _ hy
  rw [Nat.mul_succ] at hrow
  rw [pixelAddr]
  omega

/-- An indexed encoder that may run reads PAL and REMAP where the two states agree. -/
theorem indexVal_withLeftovers (h : SameButLeftovers s (s.withLeftovers r p m)) (hinv : s.Inv) {e : Encoder} {k : Nat}
    (hk : (indexBits e).isSome = true) (hc : encoderChecks e s = .ok ()) :
    indexVal k (s.withLeftovers r p m) = indexVal k s := by
  obtain ⟨hi, hs, hcur, hready⟩ := encoderChecks_eq_ok.1 hc
  have hv : s.status.palv = true := palv_of_encoderReady hready hk
  obtain ⟨hx, hy⟩ := hinv.cursor_lt_of_pixel hi hs hcur (by rintro rfl; cases hk)
  have hpal : p = s.pal := h.pal hv
  have hpixel : fetchColor .remap m (pixelAddr s.l s.cur.x.toNat s.cur.y.toNat) =
      fetchColor .remap s.remap (pixelAddr s.l s.cur.x.toNat s.cur.y.toNat) :=
    fetchColor_congr fun j hj => h.remap hv _ (pixelAddr_lt hx hy hj)
  subst hpal
  exact congrArg (· >>= resolveOrMiss s.pal (palSize k)) hpixel

/-- The own rule of an encoder writes the same bytes to the current output buffer. -/
theorem writePixel_agree (h : SameButLeftovers s (s.withLeftovers r p m)) (hinv : s.Inv) {e : Encoder} (he : e ≠ .raw)
    (hc : encoderChecks e s = .ok ()) :
    Agree (fun u v => ∃ buf, u = setCurObuf s buf ∧ v = setCurObuf (s.withLeftovers r p m) buf)
      (writePixel e s) (writePixel e (s.withLeftovers r p m)) := by
  cases e
  case raw => exact absurd rfl he
  case pl565 => exact .ok ⟨_, rfl, rfl⟩
  case i1 | i2 | i4 | i8 => exact .bind_same (indexVal_withLeftovers h hinv rfl hc) fun _ _ => .ok ⟨_, rfl, rfl⟩
  all_goals exact .bind_same rfl fun _ _ => .ok ⟨_, rfl, rfl⟩

theorem exec_encoder_sameOutcome (h : SameButLeftovers s (s.withLeftovers r p m)) (hinv : s.Inv) {e : Encoder} (he : e ≠ .raw) :
    SameOutcome (exec (encoderInstr e) s) (exec (encoderInstr e) (s.withLeftovers r p m)) := by
  rw [exec_encoder he, exec_encoder he]
  refine runCommand_sameOutcome h (.bind_same rfl fun u hc => .bind (writePixel_agree h hinv he hc) ?_)
  rintro _ _ ⟨buf, rfl, rfl⟩
  obtain ⟨d, hstatus⟩ := afterPixel_status e (setCurObuf s buf)
  have hv : (afterPixel e (setCurObuf s buf)).status.palv = s.status.palv := by rw [hstatus, setCurObuf_status]
  have hafter : afterPixel e (setCurObuf (s.withLeftovers r p m) buf) = (afterPixel e (setCurObuf s buf)).withLeftovers r p m :=
    afterPixel_withLeftovers e (setCurObuf s buf)
  rw [hafter]
  exact .ok (h.carry hv (by simp) (by simp) (by simp))

/-! ### INIT, RUN and SUBC (44 R170, R175, R181) -/

theorem startImage_sameButLeftovers (l : Latched) (warn : Bool) (s : State) :
    SameButLeftovers (startImage l warn s) (startImage l warn (s.withLeftovers r p m)) := by
  rw [startImage_eq, startImage_eq]
  exact sameButLeftovers_of_palv rfl

theorem initBody_agree (s : State) : Agree SameButLeftovers (initBody s) (initBody (s.withLeftovers r p m)) :=
  .bind_same rfl fun _ _ => .bind_same rfl fun _ _ => .ok (startImage_sameButLeftovers _ _ s)

theorem exec_init_sameOutcome (h : SameButLeftovers s (s.withLeftovers r p m)) :
    SameOutcome (exec .init s) (exec .init (s.withLeftovers r p m)) :=
  (initBody_agree (clearOutcome s)).settle (h.carry rfl rfl rfl rfl)

theorem startRun_sameButLeftovers (h : SameButLeftovers s t) : SameButLeftovers (startRun s) (startRun t) := by
  have hrest := h.eq_withLeftovers
  rw [hrest] at h ⊢
  exact h.carry rfl rfl rfl rfl

theorem exec_run_sameOutcome (h : SameButLeftovers s (s.withLeftovers r p m)) :
    SameOutcome (exec .run s) (exec .run (s.withLeftovers r p m)) :=
  ((initBody_agree (clearOutcome s)).bind fun _ _ hstart => .ok (startRun_sameButLeftovers hstart)).settle
    (h.carry rfl rfl rfl rfl)

theorem exec_subc_sameOutcome (h : SameButLeftovers s (s.withLeftovers r p m)) (i : BitVec 2) :
    SameOutcome (exec (.subc i) s) (exec (.subc i) (s.withLeftovers r p m)) := by
  refine runCommand_sameOutcome h (.bind_same rfl fun _ _ => .bind_same rfl fun _ _ => ?_)
  change Agree _ (.ok (if noPixels s.l then _ else _)) (.ok (if noPixels s.l then _ else _))
  split <;> exact .ok (sameButLeftovers_of_palv rfl)

/-! ### PALB (42 R127) -/

/-- PALB writes REMAP over the whole image, whatever stood there (20 R63). -/
theorem read_remap_of_answerOk {l : Latched} {size : Nat} {a : PalAnswer} (h : answerOk l size a = true) (m m' : Memory)
    {q : Nat} (hq : q < 4 * (l.w.toNat * l.h.toNat)) :
    Memory.read (Memory.writeList m 0 (a.remap.flatten.flatMap rgbaBytes)) q =
      Memory.read (Memory.writeList m' 0 (a.remap.flatten.flatMap rgbaBytes)) q := by
  obtain ⟨-, hrows, hwidth⟩ := answerOk_iff.1 h
  have hcolors : ∀ part ∈ a.remap.flatten.map rgbaBytes, part.length = 4 := List.forall_mem_map.2 fun _ _ => rfl
  have hlen : (a.remap.flatten.flatMap rgbaBytes).length = 4 * (l.w.toNat * l.h.toNat) := by
    rw [List.flatMap_def, length_flatten_of_length hcolors, List.length_map, length_flatten_of_length hwidth, hrows]
  have hin : 0 ≤ q ∧ q < 0 + (a.remap.flatten.flatMap rgbaBytes).length := by omega
  rw [Memory.read_writeList, Memory.read_writeList, if_pos hin, if_pos hin]

theorem palbBody_agree (s : State) : Agree SameButLeftovers (palbBody s) (palbBody (s.withLeftovers r p m)) := by
  refine .bind_same rfl fun size _ => .bind_same rfl fun image _ => .bind_same rfl fun _ hanswer => .ok ⟨rfl, fun _ => rfl, ?_⟩
  exact fun _ q hq => read_remap_of_answerOk (require_eq_ok.1 hanswer) _ _ hq

theorem exec_palb_sameOutcome (h : SameButLeftovers s (s.withLeftovers r p m)) :
    SameOutcome (exec .palb s) (exec .palb (s.withLeftovers r p m)) := by
  refine runCommand_sameOutcome (b := if s.collabDefers then palbHold else palbBody) h ?_
  split
  · exact .bind_same rfl fun _ _ => .bind_same rfl fun _ _ => .ok (h.carry rfl rfl rfl rfl)
  · exact palbBody_agree s

/-! ### The other commands -/

theorem exec_palr_sameOutcome (h : SameButLeftovers s (s.withLeftovers r p m)) :
    SameOutcome (exec .palr s) (exec .palr (s.withLeftovers r p m)) := by
  refine runCommand_sameOutcome h (.bind_same rfl fun _ _ => .bind_same rfl fun size _ => .bind_same rfl fun _ hv => ?_)
  have hpal : p = s.pal := h.pal (require_eq_ok.1 hv)
  exact .bind_same (congrArg (resolveOrMiss · size (argColor s.arg)) hpal) fun _ _ => .ok (h.carry rfl rfl rfl rfl)

theorem completeBodies_withLeftovers (s : State) (is : List (BitVec 2)) :
    completeBodies (s.withLeftovers r p m) is = completeBodies s is := by
  induction is with
  | nil => rfl
  | cons i is ih => rw [completeBodies, completeBodies, ih]; rfl

theorem serCheck_withLeftovers (s : State) : serCheck (s.withLeftovers r p m) = serCheck s := by
  rw [serCheck, serCheck, completeBodies_withLeftovers]
  rfl

theorem setArtifact_sameButLeftovers (h : SameButLeftovers s (s.withLeftovers r p m)) (art : List Byte) :
    SameButLeftovers (setArtifact s art) (setArtifact (s.withLeftovers r p m) art) := h.carry rfl rfl rfl rfl

/-- Settles O22: PAL and REMAP are read by PALR and the indexed encoders alone, PALV = 1, where the two states agree; INIT and
SUBC clear PALV, and PALB writes both anew. -/
theorem leftoversStayHidden : Obligations.LeftoversStayHidden := by
  intro i s t hinv h
  have hrest := h.eq_withLeftovers
  generalize t.res = r, t.pal = p, t.remap = m at hrest
  subst hrest
  suffices SameOutcome (exec i s) (exec i (s.withLeftovers r p m)) from this
  rcases Instr.cases_encoder i with
    ⟨e, he, rfl⟩ | rfl | rfl | rfl | rfl | rfl | rfl | ⟨v, b, rfl⟩ | rfl | rfl | rfl | rfl | ⟨k, rfl⟩
  · exact exec_encoder_sameOutcome h hinv he
  · exact runCommand_sameOutcome h (.bind_same rfl fun _ _ => .bind_same rfl fun _ _ => .ok (h.carry rfl rfl rfl rfl))
  · exact exec_init_sameOutcome h
  · exact exec_run_sameOutcome h
  · exact exec_palb_sameOutcome h
  · exact runCommand_sameOutcome h (.bind_same rfl fun _ _ => .ok (h.carry rfl rfl rfl rfl))
  · exact runCommand_sameOutcome h (.bind_same rfl fun _ _ => .bind_same rfl fun _ _ => .bind_same rfl fun _ _ =>
      .bind_same rfl fun _ _ => .ok (h.carry rfl rfl rfl rfl))
  · exact runCommand_sameOutcome h (.bind_same rfl fun _ _ => .ok (h.carry rfl rfl rfl rfl))
  · exact exec_palr_sameOutcome h
  · exact runCommand_sameOutcome h (.bind_same rfl fun _ _ => .bind_same rfl fun _ _ => .bind_same rfl fun _ _ =>
      .ok (h.carry rfl rfl rfl rfl))
  · exact runCommand_sameOutcome h (.bind_same (serCheck_withLeftovers s) fun _ _ => .bind_same rfl fun _ _ =>
      .bind_same rfl fun _ _ => .ok (setArtifact_sameButLeftovers h _))
  · exact runCommand_sameOutcome h (.bind_same (serCheck_withLeftovers s) fun _ _ => .bind_same rfl fun _ _ =>
      .ok (setArtifact_sameButLeftovers h _))
  · exact exec_subc_sameOutcome h k

end

end Sys2Proof.Machine
end
